-- ==== Sys2Proof/Word.lean ====
section
/-! DEFINITION. The words and indices of KMDB: the 16-bit machine word, the 32-bit command word, row and
column indices, half indices, and the two levels Lo and Hi. -/

namespace Sys2Proof

/-- WORD_BITS, the width of one machine word (00_scope.md R12). -/
abbrev wordBits : Nat := 16

/-- One machine word: a snapshot word, a StateStore row word, an event word (00_scope.md R12, 30_encoding.md R62 to R64).
Bit 0 is the least significant bit (00_scope.md R18). -/
abbrev Word := BitVec 16

/-- One command word CMD (30_encoding.md R65). -/
abbrev CmdWord := BitVec 32

/-- A row or column index as the 4-bit field of a command word gives it (30_encoding.md R65, R66). -/
abbrev Idx := Fin 16

/-- A half index of the SnapshotBuffer, 0 or 1 (10_state.md R27). -/
abbrev Half := Fin 2

/-- A level: a sample, an output, a StateStore bit, a polarity.  true = 1 = Hi, false = 0 = Lo (00_scope.md R18). -/
abbrev Level := Bool

/-- zext_16 of one bit (00_scope.md R18, 30_encoding.md R68). -/
def Word.ofLevel (b : Level) : Word := if b then 1#16 else 0#16

end Sys2Proof
end

