-- ==== Sys2Proof/Syntax.lean ====
section
/-! DEFINITION. The operations of KMDB as syntax: one constructor per row of spec/opcode_table.json
(30_encoding.md R67), with the operands of its row. -/

namespace Sys2Proof

/-- The thirteen operations (30_encoding.md R67).  h is a half, r a row, c a logical column. -/
inductive Instr where
  /-- `INIT pol`: check the configuration and put every key in the steady state of pol (44_lifecycle.md R142). -/
  | init (pol : Level)
  /-- `SBWR h, r, w`: the Row Driver stores a snapshot word (41_keymatrix.md R100). -/
  | sbwr (h : Half) (r : Idx) (w : Word)
  /-- `NOTIFY h`: half h is ready (41_keymatrix.md R106). -/
  | notify (h : Half)
  /-- `SSRD r, c`: read one published bit (42_statestore.md R122). -/
  | ssrd (r c : Idx)
  /-- `SSRDROW r`: read one row word (42_statestore.md R123). -/
  | ssrdrow (r : Idx)
  /-- `ERPOP`: take the oldest event (43_eventrelay.md R134). -/
  | erpop
  /-- `STOP`: the Row Driver is stopped (44_lifecycle.md R144). -/
  | stop
  /-- `DEBUPD r, c, in`: one debounce timestep of a key (40_debouncer.md R84). -/
  | debupd (r c : Idx) (sample : Level)
  /-- `DEBOUT r, c`: the debounced output of a key (40_debouncer.md R86). -/
  | debout (r c : Idx)
  /-- `SSWR r, c, b`: publish one bit (42_statestore.md R120). -/
  | sswr (r c : Idx) (b : Level)
  /-- `ERPUSH r, c, o`: offer a transition to the relay (43_eventrelay.md R131). -/
  | erpush (r c : Idx) (o : Level)
  /-- `SBRD h, r`: the engine reads a snapshot word (41_keymatrix.md R103). -/
  | sbrd (h : Half) (r : Idx)
  /-- `KEYSTEP h, r, c`: process one key of a dispatch (41_keymatrix.md R105). -/
  | keystep (h : Half) (r c : Idx)
deriving DecidableEq, Repr

/-- The operation codes that have a row (30_encoding.md R67). -/
inductive Opcode where
  | init | sbwr | notify | ssrd | ssrdrow | erpop | stop
  | debupd | debout | sswr | erpush | sbrd | keystep
deriving DecidableEq, Repr

/-- The operation of an instruction. -/
def Instr.opcode : Instr → Opcode
  | .init _ => .init
  | .sbwr _ _ _ => .sbwr
  | .notify _ => .notify
  | .ssrd _ _ => .ssrd
  | .ssrdrow _ => .ssrdrow
  | .erpop => .erpop
  | .stop => .stop
  | .debupd _ _ _ => .debupd
  | .debout _ _ => .debout
  | .sswr _ _ _ => .sswr
  | .erpush _ _ _ => .erpush
  | .sbrd _ _ => .sbrd
  | .keystep _ _ _ => .keystep

/-- The kind column of 30_encoding.md R67: a port operation is issued by an agent of the environment, a micro
operation is performed by the engine and never accepted at a port. -/
def Opcode.isPort : Opcode → Bool
  | .init | .sbwr | .notify | .ssrd | .ssrdrow | .erpop | .stop => true
  | .debupd | .debout | .sswr | .erpush | .sbrd | .keystep => false

/-- The agents of 60_exceptions.md R160. -/
inductive Agent where
  | engine
  | rowDriver
  | reader
  | consumer
  | host
deriving DecidableEq, Repr

/-- The "issued by" column of 30_encoding.md R67. -/
def Opcode.issuer : Opcode → Agent
  | .init | .stop => .host
  | .sbwr | .notify => .rowDriver
  | .ssrd | .ssrdrow => .reader
  | .erpop => .consumer
  | .debupd | .debout | .sswr | .erpush | .sbrd | .keystep => .engine

/-- The row index an operation carries, if its row has the field ROW. -/
def Instr.row? : Instr → Option Idx
  | .init _ => none
  | .sbwr _ r _ => some r
  | .notify _ => none
  | .ssrd r _ => some r
  | .ssrdrow r => some r
  | .erpop => none
  | .stop => none
  | .debupd r _ _ => some r
  | .debout r _ => some r
  | .sswr r _ _ => some r
  | .erpush r _ _ => some r
  | .sbrd _ r => some r
  | .keystep _ r _ => some r

/-- The column index an operation carries, if its row has the field COL. -/
def Instr.col? : Instr → Option Idx
  | .init _ => none
  | .sbwr _ _ _ => none
  | .notify _ => none
  | .ssrd _ c => some c
  | .ssrdrow _ => none
  | .erpop => none
  | .stop => none
  | .debupd _ c _ => some c
  | .debout _ c => some c
  | .sswr _ c _ => some c
  | .erpush _ c _ => some c
  | .sbrd _ _ => none
  | .keystep _ _ c => some c

end Sys2Proof
end

