-- ==== Sys2Proof/Decode.lean ====
section
/-! DEFINITION. Decoding and encoding of the command word (30_encoding.md R65 to R71).  A decoder is total: for any
32-bit word it finds exactly one row or reports why there is none (R70). -/

namespace Sys2Proof

/-- The fields of format K (30_encoding.md R65). -/
structure Fields where
  /-- `OP`, CMD[31:28]. -/
  op : BitVec 4
  /-- `Z`, CMD[27:25], must be 0. -/
  z : BitVec 3
  /-- `H`, CMD[24]. -/
  h : BitVec 1
  /-- `ROW`, CMD[23:20]. -/
  row : BitVec 4
  /-- `COL`, CMD[19:16]. -/
  col : BitVec 4
  /-- `DATA`, CMD[15:0]. -/
  data : BitVec 16
deriving DecidableEq, Repr

/-- The command word of the fields, most significant field first (30_encoding.md R65). -/
def Fields.pack (f : Fields) : CmdWord := f.op ++ f.z ++ f.h ++ f.row ++ f.col ++ f.data

/-- The fields of a command word (30_encoding.md R65). -/
def Fields.unpack (w : CmdWord) : Fields :=
  { op := w.extractLsb' 28 4, z := w.extractLsb' 25 3, h := w.extractLsb' 24 1,
    row := w.extractLsb' 20 4, col := w.extractLsb' 16 4, data := w.extractLsb' 0 16 }

/-- How an operation uses `DATA` (30_encoding.md R66). -/
inductive DataUse where
  | unused
  | bit
  | whole
deriving DecidableEq, Repr

/-- The `OP` value of an operation (30_encoding.md R67). -/
def Opcode.code : Opcode → BitVec 4
  | .init => 0x1#4
  | .sbwr => 0x2#4
  | .notify => 0x3#4
  | .ssrd => 0x4#4
  | .ssrdrow => 0x5#4
  | .erpop => 0x6#4
  | .stop => 0x7#4
  | .debupd => 0x9#4
  | .debout => 0xA#4
  | .sswr => 0xB#4
  | .erpush => 0xC#4
  | .sbrd => 0xD#4
  | .keystep => 0xE#4

/-- The operations in the order of the table (30_encoding.md R67). -/
def Opcode.all : List Opcode :=
  [.init, .sbwr, .notify, .ssrd, .ssrdrow, .erpop, .stop, .debupd, .debout, .sswr, .erpush, .sbrd, .keystep]

/-- The operation an `OP` value names; none for the reserved 0x0, 0x8 and 0xF (30_encoding.md R67, R69). -/
def Opcode.ofCode (op : BitVec 4) : Option Opcode := Opcode.all.find? fun o => o.code == op

/-- Does the operation use `H`? (30_encoding.md R67, "fields used") -/
def Opcode.usesH : Opcode → Bool
  | .sbwr | .notify | .sbrd | .keystep => true
  | .init | .ssrd | .ssrdrow | .erpop | .stop | .debupd | .debout | .sswr | .erpush => false

/-- Does the operation use `ROW`? (30_encoding.md R67) -/
def Opcode.usesRow : Opcode → Bool
  | .sbwr | .ssrd | .ssrdrow | .debupd | .debout | .sswr | .erpush | .sbrd | .keystep => true
  | .init | .notify | .erpop | .stop => false

/-- Does the operation use `COL`? (30_encoding.md R67) -/
def Opcode.usesCol : Opcode → Bool
  | .ssrd | .debupd | .debout | .sswr | .erpush | .keystep => true
  | .init | .sbwr | .notify | .ssrdrow | .erpop | .stop | .sbrd => false

/-- How the operation uses `DATA` (30_encoding.md R66, R67). -/
def Opcode.dataUse : Opcode → DataUse
  | .sbwr => .whole
  | .init | .debupd | .sswr | .erpush => .bit
  | .notify | .ssrd | .ssrdrow | .erpop | .stop | .debout | .sbrd | .keystep => .unused

/-- Every must-be-zero bit of the operation's row is 0 (30_encoding.md R66). -/
def Opcode.zerosOk (o : Opcode) (f : Fields) : Bool :=
  (f.z == 0#3) && (o.usesH || f.h == 0#1) && (o.usesRow || f.row == 0#4) && (o.usesCol || f.col == 0#4) &&
    match o.dataUse with
    | .whole => true
    | .bit => f.data.extractLsb' 1 15 == 0#15
    | .unused => f.data == 0#16

/-- `H` as a half index. -/
def Fields.half (f : Fields) : Half := f.h.toFin

/-- `ROW` as an index, unsigned and unscaled (30_encoding.md R66). -/
def Fields.rowIdx (f : Fields) : Idx := f.row.toFin

/-- `COL` as an index, unsigned and unscaled (30_encoding.md R66). -/
def Fields.colIdx (f : Fields) : Idx := f.col.toFin

/-- `DATA[0]` as a level (30_encoding.md R66). -/
def Fields.level (f : Fields) : Level := f.data.getLsbD 0

/-- The instruction an operation makes of its fields (30_encoding.md R67). -/
def Opcode.build (o : Opcode) (f : Fields) : Instr :=
  match o with
  | .init => .init f.level
  | .sbwr => .sbwr f.half f.rowIdx f.data
  | .notify => .notify f.half
  | .ssrd => .ssrd f.rowIdx f.colIdx
  | .ssrdrow => .ssrdrow f.rowIdx
  | .erpop => .erpop
  | .stop => .stop
  | .debupd => .debupd f.rowIdx f.colIdx f.level
  | .debout => .debout f.rowIdx f.colIdx
  | .sswr => .sswr f.rowIdx f.colIdx f.level
  | .erpush => .erpush f.rowIdx f.colIdx f.level
  | .sbrd => .sbrd f.half f.rowIdx
  | .keystep => .keystep f.half f.rowIdx f.colIdx

/-- Why a word is no operation, or no operation for where it was presented (30_encoding.md R69). -/
inductive DecodeError where
  /-- `OP` is 0x0, 0x8 or 0xF. -/
  | reservedOp (op : BitVec 4)
  /-- A must-be-zero bit of the row is 1. -/
  | mustBeZero (o : Opcode)
  /-- A micro operation presented at a port. -/
  | microAtPort (o : Opcode)
  /-- A port operation presented where only a micro operation is taken. -/
  | portAtEngine (o : Opcode)
deriving DecidableEq, Repr

/-- The decoder over all thirteen rows (30_encoding.md R67, R70). -/
def decode (w : CmdWord) : Except DecodeError Instr :=
  let f := Fields.unpack w
  match Opcode.ofCode f.op with
  | none => .error (.reservedOp f.op)
  | some o => if o.zerosOk f then .ok (o.build f) else .error (.mustBeZero o)

/-- The decoder of a port: a micro operation is not accepted there (30_encoding.md R67, R69). -/
def decodePort (w : CmdWord) : Except DecodeError Instr :=
  match decode w with
  | .error e => .error e
  | .ok i => if i.opcode.isPort then .ok i else .error (.microAtPort i.opcode)

/-- The decoder of the engine's micro operations (30_encoding.md R67, "kind"). -/
def decodeMicro (w : CmdWord) : Except DecodeError Instr :=
  match decode w with
  | .error e => .error e
  | .ok i => if i.opcode.isPort then .error (.portAtEngine i.opcode) else .ok i

/-- The instruction read from a word numbered as spec/opcode_table.json numbers it: one 32-bit command word, bit 0
least significant; the bits above nbits are 0. -/
def decodeTableWord (nbits w : Nat) : Option Instr :=
  (decode (BitVec.ofNat 32 (w % 2 ^ nbits))).toOption

/-- `match` of the row in spec/opcode_table.json (30_encoding.md R67). -/
def Opcode.tableMatch : Opcode → CmdWord
  | .init => 0x10000000#32
  | .sbwr => 0x20000000#32
  | .notify => 0x30000000#32
  | .ssrd => 0x40000000#32
  | .ssrdrow => 0x50000000#32
  | .erpop => 0x60000000#32
  | .stop => 0x70000000#32
  | .debupd => 0x90000000#32
  | .debout => 0xA0000000#32
  | .sswr => 0xB0000000#32
  | .erpush => 0xC0000000#32
  | .sbrd => 0xD0000000#32
  | .keystep => 0xE0000000#32

/-- `mask` of the row in spec/opcode_table.json (30_encoding.md R67). -/
def Opcode.tableMask : Opcode → CmdWord
  | .init => 0xFFFFFFFE#32
  | .sbwr => 0xFE0F0000#32
  | .notify => 0xFEFFFFFF#32
  | .ssrd => 0xFF00FFFF#32
  | .ssrdrow => 0xFF0FFFFF#32
  | .erpop => 0xFFFFFFFF#32
  | .stop => 0xFFFFFFFF#32
  | .debupd => 0xFF00FFFE#32
  | .debout => 0xFF00FFFF#32
  | .sswr => 0xFF00FFFE#32
  | .erpush => 0xFF00FFFE#32
  | .sbrd => 0xFE0FFFFF#32
  | .keystep => 0xFE00FFFF#32

/-- A word selects a row when `w and mask = match` (30_encoding.md R67). -/
def Opcode.selects (o : Opcode) (w : CmdWord) : Bool := (w &&& o.tableMask) == o.tableMatch

/-- A half index as the field `H`. -/
def Half.field (h : Half) : BitVec 1 := BitVec.ofFin h

/-- A row or column index as a 4-bit field. -/
def Idx.field (k : Idx) : BitVec 4 := BitVec.ofFin k

/-- The fields an operation with no operand has (30_encoding.md R66: an unused field is 0). -/
def Fields.bare (o : Opcode) : Fields := { op := o.code, z := 0#3, h := 0#1, row := 0#4, col := 0#4, data := 0#16 }

/-- The fields of an instruction, from the assembly table of 30_encoding.md R71. -/
def Instr.fields : Instr → Fields
  | .init pol => { Fields.bare .init with data := Word.ofLevel pol }
  | .sbwr h r w => { Fields.bare .sbwr with h := Half.field h, row := Idx.field r, data := w }
  | .notify h => { Fields.bare .notify with h := Half.field h }
  | .ssrd r c => { Fields.bare .ssrd with row := Idx.field r, col := Idx.field c }
  | .ssrdrow r => { Fields.bare .ssrdrow with row := Idx.field r }
  | .erpop => Fields.bare .erpop
  | .stop => Fields.bare .stop
  | .debupd r c b => { Fields.bare .debupd with row := Idx.field r, col := Idx.field c, data := Word.ofLevel b }
  | .debout r c => { Fields.bare .debout with row := Idx.field r, col := Idx.field c }
  | .sswr r c b => { Fields.bare .sswr with row := Idx.field r, col := Idx.field c, data := Word.ofLevel b }
  | .erpush r c o => { Fields.bare .erpush with row := Idx.field r, col := Idx.field c, data := Word.ofLevel o }
  | .sbrd h r => { Fields.bare .sbrd with h := Half.field h, row := Idx.field r }
  | .keystep h r c => { Fields.bare .keystep with h := Half.field h, row := Idx.field r, col := Idx.field c }

/-- The command word of an instruction (30_encoding.md R71). -/
def encode (i : Instr) : CmdWord := i.fields.pack

end Sys2Proof
end

