-- ==== Sys2Proof/Config.lean ====
section
/-! DEFINITION. What an implementation of KMDB fixes: the parameter record P of 00_scope.md section 3, the timing
parameters no state-changing rule reads, and the free values the spec leaves open.  The validity check of the
record is in Machine/Configuration.lean. -/

namespace Sys2Proof

/-- BUILD_MODE: what an invariant violation does (00_scope.md R15, 60_exceptions.md R152). -/
inductive BuildMode where
  | defensive
  | debug
deriving DecidableEq, Repr

/-- The parameter record P (00_scope.md R7 to R17; the configuration registers of 10_state.md R31).
Thresholds and dimensions are counts, so they are natural numbers; the record may be invalid (44_lifecycle.md R140). -/
structure Config where
  /-- ROWS (R7). -/
  rows : Nat
  /-- COLS (R7). -/
  cols : Nat
  /-- STEADY, in fields (R8). -/
  steady : Nat
  /-- TRANSIENT, in fields (R8). -/
  transient : Nat
  /-- PINMAP[r][c], the physical pin of key (r,c) (R13). -/
  pinmap : Vector (Vector Nat 16) 16
  /-- CW, the width of the counter register (R11). -/
  cw : Nat
  /-- QUEUE_CAP (R14). -/
  queueCap : Nat
  /-- BUILD_MODE (R15). -/
  buildMode : BuildMode
  /-- RELAY_MAY_DROP_EARLY (R17, 43_eventrelay.md R131). -/
  relayMayDropEarly : Bool
  /-- STOP_ABORTS_DISPATCH (R17, 44_lifecycle.md R144). -/
  stopAbortsDispatch : Bool
  /-- INIT_CLEARS_RELAY (R17, 44_lifecycle.md R142). -/
  initClearsRelay : Bool
deriving DecidableEq, Repr

/-- PINMAP[r][c] (00_scope.md R13). -/
def Config.pin (P : Config) (r c : Idx) : Nat := P.pinmap[r.val][c.val]

/-- The parameters with which the default values of 00_scope.md section 3 are filled in: CW = 8 and the three
environment booleans at their defaults; BUILD_MODE is debug, the arm 60_exceptions.md R152 recommends to a model. -/
def Config.withDefaults (rows cols steady transient queueCap : Nat) (pinmap : Vector (Vector Nat 16) 16) : Config :=
  { rows := rows, cols := cols, steady := steady, transient := transient, pinmap := pinmap, cw := 8,
    queueCap := queueCap, buildMode := .debug, relayMayDropEarly := false, stopAbortsDispatch := false,
    initClearsRelay := true }

/-- The identity pin map: column c on pin c in every row. -/
def identityPinmap : Vector (Vector Nat 16) 16 :=
  Vector.replicate 16 (Vector.ofFn fun c => c.val)

/-- The configuration of the model's reset state, one value among those the spec allows (DESIGN CHOICE, log entry 2):
16 x 16 keys, the thresholds of the source's Scenario A, identity pin map, 16 event records. -/
def Config.ofReset : Config := Config.withDefaults 16 16 4 2 16 identityPinmap

/-- A free value: the content of a snapshot word that no SBWR has written since power-on, one fresh value at each
read (41_keymatrix.md R102, 93_implementation_defined.md U6, log entry 4).  Nothing constrains it. -/
opaque Config.freeWord : Nat → Word

/-- A free value: whether the relay's backing allocator is exhausted at a push although the queue has room, drawn
afresh at each push (43_eventrelay.md R131, U4, log entry 5).  Nothing constrains it. -/
opaque Config.freeDrop : Nat → Bool

/-- The timing parameters, in one common time unit (00_scope.md R9, R10, R16).  No step reads them (log entry 20). -/
structure Times where
  /-- T_ROW, the row-activation period. -/
  tRow : Nat
  /-- T_STEADY. -/
  tSteady : Nat
  /-- T_TRANSIENT. -/
  tTransient : Nat
  /-- T_MARGIN. -/
  tMargin : Nat
deriving DecidableEq, Repr

end Sys2Proof
end

