-- ==== Sys2Proof/Machine/State.lean ====
section
/-! DEFINITION. The state of KMDB as plain data (10_state.md R20), the model's own sequencing fields, the reasons a
step can stop, and the state after power-on (70_reset_and_hazards.md R180). -/

namespace Sys2Proof.Machine

/-- The FSM state of a Debouncer, `fsm[r][c]` (10_state.md R22). -/
inductive Fsm where
  | steadyLo
  | transientLoHi
  | steadyHi
  | transientHiLo
deriving DecidableEq, Repr

/-- One Debouncer, the pair (`fsm[r][c]`, `cnt[r][c]`) (10_state.md R21).  The counter is the integer its CW-bit
register denotes (00_scope.md R11, log entry 13). -/
structure Debouncer where
  fsm : Fsm
  cnt : Int
deriving DecidableEq, Repr

/-- One event record (row, col, output) (10_state.md R28, 30_encoding.md R64). -/
structure Event where
  row : Idx
  col : Idx
  output : Level
deriving DecidableEq, Repr

/-- The scan cursor `cur = (h, r, c)` (10_state.md R30). -/
structure Cursor where
  h : Half
  r : Nat
  c : Nat
deriving DecidableEq, Repr

/-- The lifecycle register `phase` (10_state.md R32). -/
inductive Phase where
  | uninit
  | failed
  | ready
deriving DecidableEq, Repr

/-- Which micro operation of the key step in progress the engine performs next (41_keymatrix.md R105); the model's
own field, log entry 6. -/
inductive Stage where
  /-- No micro operation of this key step has been done: next is SBRD, or the whole KEYSTEP. -/
  | keyStart
  /-- The word is sampled: next is DEBUPD. -/
  | update
  /-- DEBUPD reported changed = 1: next is DEBOUT. -/
  | output
  /-- The output is known: next is SSWR. -/
  | publish
  /-- The bit is published: next is ERPUSH. -/
  | forward
deriving DecidableEq, Repr

/-- The results of the engine's micro operations, which live inside a key step (10_state.md R29, 30_encoding.md R68). -/
structure Latch where
  /-- What the last SBRD yielded. -/
  word : Word
  /-- `changed`, what the last DEBUPD yielded. -/
  changed : Bool
  /-- `output`, what the last DEBOUT yielded. -/
  output : Level
  /-- `taken`, what the last ERPUSH yielded. -/
  taken : Bool
deriving DecidableEq, Repr

/-- What an operation answers: a status, 0 for done, and for the reading operations a data word (30_encoding.md R68). -/
structure Answer where
  status : BitVec 4
  data : Option Word
deriving DecidableEq, Repr

/-- One move of the world around the block, or a turn it leaves to the engine (60_exceptions.md R160, log entry 7). -/
inductive Slot where
  /-- A command word presented at a port (30_encoding.md R67). -/
  | port (w : CmdWord)
  /-- The engine performs its next micro operation (20_memory.md R50). -/
  | engineMicro
  /-- The engine performs its next key step whole, or, inside one, its next micro operation (20_memory.md R50). -/
  | engineKey
  /-- A test bench drives one micro operation on the components, as the vectors D, SS and ER of 95_test_vectors.md
  do (log entry 8). -/
  | bench (w : CmdWord)
  /-- Power-on reset (70_reset_and_hazards.md R180, log entry 17). -/
  | powerOn
deriving DecidableEq, Repr

/-- The SnapshotBuffer as a list of (cell, word) pairs, cells strictly rising; a cell that is not listed has not
been written since power-on (20_memory.md R40, log entry 14). -/
abbrev Memory := List (Nat × Word)

/-- Why a run of the model ends: the hazard fault `Overrun`, code 6 (60_exceptions.md R162).  Both are safe: the
model stops where the hardware would go on with corrupted samples. -/
inductive Fault where
  /-- Raised by `NOTIFY h` while a dispatch is in progress (41_keymatrix.md R108); safe. -/
  | overrunNotify (h : Half)
  /-- Raised by `SBWR h, r, w` to the half under dispatch (41_keymatrix.md R100); safe. -/
  | overrunWrite (h : Half) (r : Idx)
deriving DecidableEq, Repr

/-- Why the model gives an operation no meaning. -/
inductive Refusal where
  /-- Raised by `exec` for an operation that has no meaning yet (none is left); safe. -/
  | notModelled (mnemonic : String)
deriving DecidableEq, Repr

/-- The state of one KMDB instance (10_state.md R20), the configuration registers (R31), the answer of the last
operation (30_encoding.md R68), and the model's own fields. -/
structure State where
  /-- The configuration registers (R31); no step writes them (70_reset_and_hazards.md R191). -/
  cfg : Config
  /-- `fsm[r][c]` and `cnt[r][c]` (R21); only the entries with r < ROWS and c < COLS exist in the block. -/
  keys : Vector (Vector Debouncer 16) 16
  /-- `ss[r]` (R26); only rows r < ROWS and bits c < COLS exist in the block. -/
  ss : Vector Word 16
  /-- `snap[h][r]` (R27). -/
  snap : Memory
  /-- `eq`, oldest first (R28). -/
  eq : List Event
  /-- `busy` (R30). -/
  busy : Bool
  /-- `cur` (R30), without meaning while `busy` is false. -/
  cur : Cursor
  /-- `phase` (R32). -/
  phase : Phase
  /-- `fcode` (R33). -/
  fcode : BitVec 4
  /-- The key of an invariant violation, in the model's fault record (60_exceptions.md R163). -/
  faultKey : Option (Idx × Idx)
  /-- The answer of the last operation that gave one. -/
  answer : Option Answer
  /-- The model's own: where the engine stands inside a key step. -/
  stage : Stage
  /-- The results of micro operations (R29). -/
  latch : Latch
  /-- The model's own: the key whose key step STOP cut off from its dispatch and the engine still has to end
  (log entry 9). -/
  cutKey : Option (Idx × Idx)
  /-- The model's own: the moves still to come, in order. -/
  inbox : List Slot
  /-- The model's own: how many free values have been drawn. -/
  draws : Nat
deriving DecidableEq, Repr

/-- The state after power-on for the configuration P (10_state.md R35).  phase, fcode and busy are the spec's; the
other registers hold no value by the spec and here the named values of log entry 3. -/
def State.powerOn (P : Config) : State :=
  { cfg := P
    keys := Vector.replicate 16 (Vector.replicate 16 { fsm := .steadyLo, cnt := 0 })
    ss := Vector.replicate 16 0#16
    snap := []
    eq := []
    busy := false
    cur := { h := 0, r := 0, c := 0 }
    phase := .uninit
    fcode := 0#4
    faultKey := none
    answer := none
    stage := .keyStart
    latch := { word := 0#16, changed := false, output := false, taken := false }
    cutKey := none
    inbox := []
    draws := 0 }

/-- The machine right after power-on, with the configuration of log entry 2. -/
def State.reset : State := State.powerOn Config.ofReset

end Sys2Proof.Machine
end

