-- ==== Sys2Proof/Machine/Flags.lean ====
section
/-! DEFINITION. The Debouncer's arithmetic and the flags `output` and `changed` (10_state.md R25, R29;
40_debouncer.md R80 to R98), the encodings of state and of event words (30_encoding.md R60, R61, R64), and the
fault and refusal codes (60_exceptions.md R163).  Throughout, S = STEADY and T = TRANSIENT. -/

namespace Sys2Proof.Machine

/-- The 2-bit code of an FSM state (30_encoding.md R60). -/
def Fsm.code : Fsm → BitVec 2
  | .steadyLo => 0b00#2
  | .transientLoHi => 0b01#2
  | .steadyHi => 0b10#2
  | .transientHiLo => 0b11#2

/-- The FSM state of a 2-bit code; all four codes are legal (30_encoding.md R60). -/
def Fsm.ofCode (b : BitVec 2) : Fsm :=
  match b.getLsbD 1, b.getLsbD 0 with
  | false, false => .steadyLo
  | false, true => .transientLoHi
  | true, false => .steadyHi
  | true, true => .transientHiLo

/-- The CW-bit two's-complement register of a counter (30_encoding.md R61). -/
def cntRegister (cw : Nat) (k : Int) : BitVec cw := BitVec.ofInt cw k

/-- The output function `out` (40_debouncer.md R81). -/
def Fsm.out : Fsm → Level
  | .steadyLo => false
  | .transientHiLo => false
  | .transientLoHi => true
  | .steadyHi => true

/-- The steady state of a polarity (44_lifecycle.md R142). -/
def Fsm.steadyOf (pol : Level) : Fsm := if pol then .steadyHi else .steadyLo

/-- The Debouncer that INIT puts at every key: the steady state of the polarity, the counter saturated
(10_state.md R36, 44_lifecycle.md R142). -/
def Debouncer.initial (S : Int) (pol : Level) : Debouncer :=
  { fsm := Fsm.steadyOf pol, cnt := if pol then S else -S }

/-- `sat_inc(k) = min(k + 1, +S)` (40_debouncer.md R82). -/
def satInc (S k : Int) : Int := min (k + 1) S

/-- `sat_dec(k) = max(k − 1, −S)` (40_debouncer.md R82). -/
def satDec (S k : Int) : Int := max (k - 1) (-S)

/-- Step 1 of DEBUPD: the counter stepped by the sample (40_debouncer.md R82, R84). -/
def stepCounter (S k : Int) (sample : Level) : Int := if sample then satInc S k else satDec S k

/-- The counter is in [−S, +S]: the negation of the invariant-violation condition (40_debouncer.md R84, R98). -/
def Debouncer.inRange (S : Int) (d : Debouncer) : Bool := decide (-S ≤ d.cnt) && decide (d.cnt ≤ S)

/-- Step 2 of DEBUPD: the transition on the stepped counter k1, with the flag `changed` (40_debouncer.md R84). -/
def transition (S T : Int) (f : Fsm) (k1 : Int) : Debouncer × Bool :=
  match f with
  | .steadyLo =>
    if k1 ≥ -(S - T) then ({ fsm := .transientLoHi, cnt := 0 }, true) else ({ fsm := .steadyLo, cnt := k1 }, false)
  | .transientLoHi =>
    if k1 = S then ({ fsm := .steadyHi, cnt := k1 }, false)
    else if k1 = -S then ({ fsm := .steadyLo, cnt := k1 }, true)
    else ({ fsm := .transientLoHi, cnt := k1 }, false)
  | .steadyHi =>
    if k1 ≤ S - T then ({ fsm := .transientHiLo, cnt := 0 }, true) else ({ fsm := .steadyHi, cnt := k1 }, false)
  | .transientHiLo =>
    if k1 = -S then ({ fsm := .steadyLo, cnt := k1 }, false)
    else if k1 = S then ({ fsm := .steadyHi, cnt := k1 }, true)
    else ({ fsm := .transientHiLo, cnt := k1 }, false)

/-- One debounce timestep of a Debouncer whose counter is in range: the Debouncer after and `changed`
(40_debouncer.md R84). -/
def Debouncer.update (S T : Int) (d : Debouncer) (sample : Level) : Debouncer × Bool :=
  transition S T d.fsm (stepCounter S d.cnt sample)

/-- The Debouncer after a sequence of samples, oldest first. -/
def Debouncer.feed (S T : Int) (d : Debouncer) (samples : List Level) : Debouncer :=
  samples.foldl (fun e x => (e.update S T x).1) d

/-- The `changed` flags a sequence of samples reports, oldest first. -/
def Debouncer.changes (S T : Int) : Debouncer → List Level → List Bool
  | _, [] => []
  | d, x :: xs => (d.update S T x).2 :: Debouncer.changes S T (d.update S T x).1 xs

/-- The 16-bit event word `EVT` of a record in the queue (30_encoding.md R64): valid[15] = 1, output[8], row[7:4],
col[3:0], the rest 0. -/
def Event.word (e : Event) : Word :=
  1#1 ++ 0#6 ++ BitVec.ofBool e.output ++ (BitVec.ofFin e.row : BitVec 4) ++ (BitVec.ofFin e.col : BitVec 4)

/-- The answer of an ERPOP that found the queue empty: valid = 0 (30_encoding.md R64, 43_eventrelay.md R134). -/
def emptyEventWord : Word := 0x0000#16

/-- The faults and refusals of 60_exceptions.md R163. -/
inductive Code where
  | none
  | configThresholdOrder
  | configDimRange
  | configCounterWidth
  | configPinMap
  | invariantViolation
  | overrun
  | badIndex
  | illegalCommand
  | illegalPhase
deriving DecidableEq, Repr

/-- The 4-bit number of a code (60_exceptions.md R163). -/
def Code.num : Code → BitVec 4
  | .none => 0#4
  | .configThresholdOrder => 1#4
  | .configDimRange => 2#4
  | .configCounterWidth => 3#4
  | .configPinMap => 4#4
  | .invariantViolation => 5#4
  | .overrun => 6#4
  | .badIndex => 7#4
  | .illegalCommand => 8#4
  | .illegalPhase => 9#4

end Sys2Proof.Machine
end

