-- ==== Sys2Proof/Machine/Configuration.lean ====
section
/-! DEFINITION. The static configuration check `ConfigValid(P)` and the code it reports (44_lifecycle.md R140, R141). -/

namespace Sys2Proof.Machine

/-- `0 < TRANSIENT` and `TRANSIENT < STEADY` (R140). -/
def thresholdOrderOk (P : Config) : Bool := decide (0 < P.transient) && decide (P.transient < P.steady)

/-- `1 ≤ ROWS ≤ 16` and `1 ≤ COLS ≤ 16` (R140). -/
def dimRangeOk (P : Config) : Bool :=
  decide (1 ≤ P.rows) && decide (P.rows ≤ 16) && decide (1 ≤ P.cols) && decide (P.cols ≤ 16)

/-- `STEADY ≤ 2^(CW−1) − 1` (R140), as `2·STEADY + 2 ≤ 2^CW`, the same condition without a subtraction. -/
def counterWidthOk (P : Config) : Bool := decide (2 * P.steady + 2 ≤ 2 ^ P.cw)

/-- The pins of the columns of row r that exist. -/
def rowPins (P : Config) (r : Idx) : List Nat :=
  ((List.finRange 16).filter fun c => decide (c.val < P.cols)).map fun c => P.pin r c

/-- Every pin of the list is below WORD_BITS and differs from the later ones. -/
def pinsOk : List Nat → Bool
  | [] => true
  | p :: ps => decide (p < wordBits) && ps.all (fun q => !(q == p)) && pinsOk ps

/-- Every pin of an existing key is below WORD_BITS, and no two columns of a row share one (R140, R13). -/
def pinMapOk (P : Config) : Bool :=
  (List.finRange 16).all fun r => !decide (r.val < P.rows) || pinsOk (rowPins P r)

/-- The lowest code among the checks that fail, `none` when the configuration is valid (R140, R141;
60_exceptions.md R157). -/
def configError (P : Config) : Code :=
  if !thresholdOrderOk P then .configThresholdOrder
  else if !dimRangeOk P then .configDimRange
  else if !counterWidthOk P then .configCounterWidth
  else if !pinMapOk P then .configPinMap
  else .none

/-- `ConfigValid(P)` (R140). -/
def configValid (P : Config) : Bool := configError P == .none

end Sys2Proof.Machine
end

