-- ==== Sys2Proof/Machine/Memory.lean ====
section
/-! DEFINITION. The operations on the SnapshotBuffer as a memory in canonical form: MemRead and MemWrite of one
unit of the space SB (20_memory.md R40, R44, R46). -/

namespace Sys2Proof.Machine

/-- The number of cells of the space SB a command word can name: two halves of at most 16 rows (20_memory.md R40). -/
abbrev snapCells : Nat := 32

/-- The canonical form of a snapshot memory: cells strictly rising, each the cell of some (h, r). -/
abbrev Memory.wf (m : Memory) : Prop := m.Pairwise (fun a b => a.1 < b.1) ∧ ∀ e ∈ m, e.1 < snapCells

/-- MemRead of one word: what an SBWR last wrote to the cell, none if none has (20_memory.md R46, 41_keymatrix.md R102). -/
def Memory.read : Memory → Nat → Option Word
  | [], _ => none
  | (a, v) :: rest, k => if a = k then some v else Memory.read rest k

/-- MemWrite of one word, whole (20_memory.md R46). -/
def Memory.write : Memory → Nat → Word → Memory
  | [], k, w => [(k, w)]
  | (a, v) :: rest, k, w =>
    if k < a then (k, w) :: (a, v) :: rest
    else if k = a then (k, w) :: rest
    else (a, v) :: Memory.write rest k w

/-- The cell of `snap[h][r]`. -/
def snapCell (h : Half) (r : Idx) : Nat := 16 * h.val + r.val

/-- `snap[h][r]`, none while no SBWR has written it since power-on (41_keymatrix.md R102). -/
def State.snapWord (s : State) (h : Half) (r : Idx) : Option Word := Memory.read s.snap (snapCell h r)

end Sys2Proof.Machine
end

