-- ==== Sys2Proof/Machine/Operands.lean ====
section
/-! DEFINITION. Operand forms: index checks, the pin select, the bit and row views of the StateStore, the register
file of Debouncers (30_encoding.md R66, 41_keymatrix.md R104, 10_state.md R21, R26). -/

namespace Sys2Proof.Machine

/-- ROW names a row of the matrix (20_memory.md R43). -/
def inRow (P : Config) (r : Idx) : Bool := decide (r.val < P.rows)

/-- ROW and COL name a key of the matrix (20_memory.md R43, 00_scope.md R7). -/
def inMatrix (P : Config) (r c : Idx) : Bool := decide (r.val < P.rows) && decide (c.val < P.cols)

/-- The keys of the matrix in traversal order: rows ascending, logical columns ascending (41_keymatrix.md R107). -/
def keyOrder (P : Config) : List (Idx × Idx) :=
  (List.finRange 16).flatMap fun r => ((List.finRange 16).filter fun c => inMatrix P r c).map fun c => (r, c)

/-- `pin(w, r, c) = w[PINMAP[r][c]]` (41_keymatrix.md R104). -/
def pinSelect (P : Config) (w : Word) (r c : Idx) : Level := w.getLsbD (P.pin r c)

/-- Register read of the Debouncer of key (r,c) (10_state.md R21). -/
def State.key (s : State) (r c : Idx) : Debouncer := s.keys[r.val][c.val]

/-- `ss[r][c]` (10_state.md R26). -/
def State.ssBit (s : State) (r c : Idx) : Level := (s.ss[r.val]).getLsbD c.val

/-- The word whose low COLS bits are 1 (30_encoding.md R63). -/
def colMask (cols : Nat) : Word := BitVec.ofNat 16 (2 ^ cols - 1)

/-- The row word `zext_16(ss[r])`: bits COLS to 15 are 0 (30_encoding.md R63, 42_statestore.md R123). -/
def State.ssRow (s : State) (r : Idx) : Word := s.ss[r.val] &&& colMask s.cfg.cols

/-- A row word with bit c set or cleared, the other bits kept (42_statestore.md R120, 20_memory.md R58). -/
def Word.putBit (w : Word) (c : Idx) (b : Level) : Word :=
  if b then w ||| (1#16 <<< c.val) else w &&& ~~~(1#16 <<< c.val)

/-- The key the scan cursor names, none once it has left the matrix (10_state.md R30). -/
def State.cursorKey (s : State) : Option (Idx × Idx) :=
  if h : s.cur.r < 16 ∧ s.cur.c < 16 then
    if inMatrix s.cfg ⟨s.cur.r, h.1⟩ ⟨s.cur.c, h.2⟩ then some (⟨s.cur.r, h.1⟩, ⟨s.cur.c, h.2⟩) else none
  else none

/-- The key the engine works on next: that of a key step STOP cut off from its dispatch, else the cursor's; none when it
is no key of the matrix (log entry 9). -/
def State.dueKey (s : State) : Option (Idx × Idx) :=
  match s.cutKey with
  | some k => if inMatrix s.cfg k.1 k.2 then some k else none
  | none => s.cursorKey

/-- The key whose key step is in progress, none between two key steps (41_keymatrix.md R105). -/
def State.keyInProgress (s : State) : Option (Idx × Idx) := if s.stage = .keyStart then none else s.dueKey

/-- The engine has something to do: a dispatch is in progress (41_keymatrix.md R112), or a key step that STOP cut off
from its dispatch (log entry 9). -/
def State.active (s : State) : Bool := s.busy || s.cutKey.isSome

end Sys2Proof.Machine
end

