-- ==== Sys2Proof/Machine/Ops.lean ====
section
/-! DEFINITION. The named operations over State: the update of each field, the answers, taking a fault, the micro
operations of the engine, and the moves of the scan cursor.  The meanings of the instructions are written over these. -/

namespace Sys2Proof.Machine

/-! ### The update of each field -/

/-- The state with the field `keys` replaced. -/
def State.withKeys (s : State) (v : Vector (Vector Debouncer 16) 16) : State := { s with keys := v }

/-- The state with the field `ss` replaced. -/
def State.withSs (s : State) (v : Vector Word 16) : State := { s with ss := v }

/-- The state with the field `snap` replaced. -/
def State.withSnap (s : State) (v : Memory) : State := { s with snap := v }

/-- The state with the field `eq` replaced. -/
def State.withEq (s : State) (v : List Event) : State := { s with eq := v }

/-- The state with the field `busy` replaced. -/
def State.withBusy (s : State) (v : Bool) : State := { s with busy := v }

/-- The state with the field `cur` replaced. -/
def State.withCur (s : State) (v : Cursor) : State := { s with cur := v }

/-- The state with the field `phase` replaced. -/
def State.withPhase (s : State) (v : Phase) : State := { s with phase := v }

/-- The state with the field `fcode` replaced. -/
def State.withFcode (s : State) (v : BitVec 4) : State := { s with fcode := v }

/-- The state with the field `faultKey` replaced. -/
def State.withFaultKey (s : State) (v : Option (Idx × Idx)) : State := { s with faultKey := v }

/-- The state with the field `answer` replaced. -/
def State.withAnswer (s : State) (v : Option Answer) : State := { s with answer := v }

/-- The state with the field `stage` replaced. -/
def State.withStage (s : State) (v : Stage) : State := { s with stage := v }

/-- The state with the field `latch` replaced. -/
def State.withLatch (s : State) (v : Latch) : State := { s with latch := v }

/-- The state with the field `cutKey` replaced. -/
def State.withCutKey (s : State) (v : Option (Idx × Idx)) : State := { s with cutKey := v }

/-- The state with the field `inbox` replaced. -/
def State.withInbox (s : State) (v : List Slot) : State := { s with inbox := v }

/-- The state with the field `draws` replaced. -/
def State.withDraws (s : State) (v : Nat) : State := { s with draws := v }

/-! ### Registers and spaces -/

/-- Register write of the Debouncer of key (r,c); the Debouncers of the other keys are kept (10_state.md R21). -/
def State.setKey (s : State) (r c : Idx) (d : Debouncer) : State :=
  s.withKeys (s.keys.set r.val ((s.keys[r.val]).set c.val d))

/-- MemWrite(SS, (r, c), 1, b): one atomic store of one bit (42_statestore.md R120, 20_memory.md R45). -/
def State.setSsBit (s : State) (r c : Idx) (b : Level) : State :=
  s.withSs (s.ss.set r.val (Word.putBit s.ss[r.val] c b))

/-- MemWrite(SB, (h, r), 1, w) (41_keymatrix.md R100, 20_memory.md R46). -/
def State.setSnap (s : State) (h : Half) (r : Idx) (w : Word) : State :=
  s.withSnap (Memory.write s.snap (snapCell h r) w)

/-! ### Answers (30_encoding.md R68) -/

/-- Status 0, no data. -/
def State.done (s : State) : State := s.withAnswer (some { status := Code.none.num, data := none })

/-- Status 0 and a data word. -/
def State.doneWith (s : State) (w : Word) : State := s.withAnswer (some { status := Code.none.num, data := some w })

/-- A refusal: the operation answers the code as its status and changes no state of the block
(30_encoding.md R68; 60_exceptions.md R153, R154, R155). -/
def State.refuse (s : State) (c : Code) : State := s.withAnswer (some { status := c.num, data := none })

/-! ### Taking a fault (60_exceptions.md) -/

/-- Taking a fault that puts the block in `Failed`: phase <- Failed, fcode <- the code, no other state written
(60_exceptions.md R150, R152).  Nothing is saved and there is no handler (R158, R159); `Failed` is left only by
power-on reset (R170). -/
def State.takeFault (s : State) (c : Code) : State := (s.withPhase .failed).withFcode c.num

/-- The dispatch in progress ends: busy <- 0, and no key step is in progress (41_keymatrix.md R106). -/
def State.endDispatch (s : State) : State := ((s.withBusy false).withStage .keyStart).withCutKey none

/-- An invariant violation met by DEBUPD at key (r,c).  A debug build takes the fault, ends the key step and the
dispatch, and a model records the key (60_exceptions.md R152, R163); a defensive build changes nothing.  In both
`changed` is 0. -/
def State.violate (s : State) (r c : Idx) : State :=
  let s := s.withLatch { s.latch with changed := false }
  match s.cfg.buildMode with
  | .defensive => s
  | .debug => ((s.takeFault .invariantViolation).endDispatch).withFaultKey (some (r, c))

/-- Power-on reset: every register as `State.powerOn` says, the configuration kept; the moves still to come and the
count of free values drawn are not the block's and stay (70_reset_and_hazards.md R180, log entry 17). -/
def State.resetPower (s : State) : State := ((State.powerOn s.cfg).withInbox s.inbox).withDraws s.draws

/-! ### The micro operations of the engine -/

/-- SBRD h, r: the word is latched; a word nothing has written is a free value (41_keymatrix.md R102, R103). -/
def State.opSbrd (s : State) (h : Half) (r : Idx) : State :=
  match s.snapWord h r with
  | some w => s.withLatch { s.latch with word := w }
  | none => (s.withLatch { s.latch with word := Config.freeWord s.draws }).withDraws (s.draws + 1)

/-- DEBUPD r, c, in: one debounce timestep of key (r,c); `changed` is latched (40_debouncer.md R84, R98). -/
def State.opDebupd (s : State) (r c : Idx) (sample : Level) : State :=
  if (s.key r c).inRange s.cfg.steady then
    let u := (s.key r c).update s.cfg.steady s.cfg.transient sample
    (s.setKey r c u.1).withLatch { s.latch with changed := u.2 }
  else s.violate r c

/-- DEBOUT r, c: the output of key (r,c) is latched (40_debouncer.md R86). -/
def State.opDebout (s : State) (r c : Idx) : State := s.withLatch { s.latch with output := (s.key r c).fsm.out }

/-- SSWR r, c, b (42_statestore.md R120). -/
def State.opSswr (s : State) (r c : Idx) (b : Level) : State := s.setSsBit r c b

/-- `early_drop` of a push: false unless RELAY_MAY_DROP_EARLY, then a free boolean (43_eventrelay.md R131). -/
def State.earlyDrop (s : State) : Bool := s.cfg.relayMayDropEarly && Config.freeDrop s.draws

/-- ERPUSH r, c, o: append the record at the tail, or drop it silently; `taken` is latched (43_eventrelay.md R131). -/
def State.opErpush (s : State) (r c : Idx) (o : Level) : State :=
  let take := decide (s.eq.length < s.cfg.queueCap) && !s.earlyDrop
  let t := s.withLatch { s.latch with taken := take }
  let t := t.withEq (if take then s.eq ++ [{ row := r, col := c, output := o }] else s.eq)
  t.withDraws (if s.cfg.relayMayDropEarly then s.draws + 1 else s.draws)

/-- KEYSTEP h, r, c: sample, update, and only when `changed` publish and forward, in this order (41_keymatrix.md R105). -/
def State.opKeystep (s : State) (h : Half) (r c : Idx) : State :=
  let s := s.opSbrd h r
  let s := s.opDebupd r c (pinSelect s.cfg s.latch.word r c)
  if s.latch.changed then
    let s := s.opDebout r c
    let s := s.opSswr r c s.latch.output
    s.opErpush r c s.latch.output
  else s

/-! ### The scan cursor (10_state.md R30) -/

/-- The cursor after the key it names: column first, then row (10_state.md R30). -/
def Cursor.next (P : Config) (k : Cursor) : Cursor :=
  if k.c + 1 < P.cols then { k with c := k.c + 1 } else { k with r := k.r + 1, c := 0 }

/-- The acceptance of a notification: busy <- 1 and the cursor at the first key of the half (41_keymatrix.md R106,
60_exceptions.md R158).  A key step that STOP cut off from its dispatch is ended first, by the engine (log entry 9). -/
def State.beginDispatch (s : State) (h : Half) : State :=
  ((s.withBusy true).withStage (if s.cutKey.isSome then s.stage else .keyStart)).withCur { h := h, r := 0, c := 0 }

/-- STOP cuts the dispatch short: busy <- 0 and nothing else of the block (44_lifecycle.md R144); the key step in
progress, if there is one, is the last one of the dispatch and is still to be ended (log entry 9). -/
def State.abortDispatch (s : State) : State := (s.withBusy false).withCutKey s.keyInProgress

/-- The end of a key step: the cursor advances, and after the last column of the last row the dispatch ends
(10_state.md R30).  The end of a key step that STOP cut off from its dispatch moves no cursor (log entry 9).  Nothing is
left to do when the key step itself ended the dispatch (60_exceptions.md R152). -/
def State.finishKey (s : State) : State :=
  if s.cutKey.isSome then (s.withStage .keyStart).withCutKey none
  else if s.busy then
    let k := s.cur.next s.cfg
    let t := (s.withStage .keyStart).withCur k
    if k.r < s.cfg.rows then t else t.endDispatch
  else s

end Sys2Proof.Machine
end

