-- ==== Sys2Proof/Machine/Debouncer.lean ====
section
/-! DEFINITION. The meanings of the Debouncer's operations: DEBUPD and DEBOUT (40_debouncer.md).  An operation whose
indices name no key is answered BadIndex and changes no state (30_encoding.md R66, 20_memory.md R43). -/

namespace Sys2Proof.Machine

/-- `DEBUPD r, c, in` (40_debouncer.md R84). -/
def execDebupd (r c : Idx) (sample : Level) (s : State) : Host.Outcome State Fault Refusal :=
  .next (if inMatrix s.cfg r c then s.opDebupd r c sample else s.refuse .badIndex)

/-- `DEBOUT r, c` (40_debouncer.md R86). -/
def execDebout (r c : Idx) (s : State) : Host.Outcome State Fault Refusal :=
  .next (if inMatrix s.cfg r c then s.opDebout r c else s.refuse .badIndex)

end Sys2Proof.Machine
end

