-- ==== Sys2Proof/Machine/EventRelay.lean ====
section
/-! DEFINITION. The meanings of the EventRelay's operations: ERPUSH and ERPOP (43_eventrelay.md). -/

namespace Sys2Proof.Machine

/-- `ERPUSH r, c, o` (43_eventrelay.md R131). -/
def execErpush (r c : Idx) (o : Level) (s : State) : Host.Outcome State Fault Refusal :=
  .next (if inMatrix s.cfg r c then s.opErpush r c o else s.refuse .badIndex)

/-- The head of the queue is taken: the answer is its event word, or the empty answer (43_eventrelay.md R134). -/
def State.popEvent (s : State) : State :=
  match s.eq with
  | [] => s.doneWith emptyEventWord
  | e :: rest => (s.withEq rest).doneWith e.word

/-- `ERPOP` (43_eventrelay.md R134). -/
def execErpop (s : State) : Host.Outcome State Fault Refusal :=
  .next (if s.phase = .ready then s.popEvent else s.refuse .illegalPhase)

end Sys2Proof.Machine
end

