-- ==== Sys2Proof/Machine/KeyMatrix.lean ====
section
/-! DEFINITION. The meanings of the SnapshotBuffer's and the KeyMatrix engine's operations: SBWR, SBRD, KEYSTEP and
NOTIFY (41_keymatrix.md), and the whole dispatch as one function, the loop of NOTIFY's rule. -/

namespace Sys2Proof.Machine

/-- `SBWR h, r, w` (41_keymatrix.md R100): index, then hazard, then the store; served in every phase. -/
def execSbwr (h : Half) (r : Idx) (w : Word) (s : State) : Host.Outcome State Fault Refusal :=
  if inRow s.cfg r then
    if s.busy && s.cur.h == h then .fault (.overrunWrite h r) else .next ((s.setSnap h r w).done)
  else .next (s.refuse .badIndex)

/-- `SBRD h, r` (41_keymatrix.md R103). -/
def execSbrd (h : Half) (r : Idx) (s : State) : Host.Outcome State Fault Refusal :=
  .next (if inRow s.cfg r then s.opSbrd h r else s.refuse .badIndex)

/-- `KEYSTEP h, r, c` (41_keymatrix.md R105). -/
def execKeystep (h : Half) (r c : Idx) (s : State) : Host.Outcome State Fault Refusal :=
  .next (if inMatrix s.cfg r c then s.opKeystep h r c else s.refuse .badIndex)

/-- `NOTIFY h` (41_keymatrix.md R106): the notification is accepted and its dispatch started; the key steps of the
loop are the engine's own moves from here on (R112; 60_exceptions.md R158).  DESIGN CHOICE (log entry 25): the spec gives
NOTIFY the status 0 and not the moment of it; the model answers at the acceptance, and the end of the dispatch, be it an
InvariantViolation, writes no answer. -/
def execNotify (h : Half) (s : State) : Host.Outcome State Fault Refusal :=
  if s.phase = .ready then
    if s.busy then .fault (.overrunNotify h) else .next ((s.beginDispatch h).done)
  else .next (s.refuse .illegalPhase)

/-- The loop of `NOTIFY h` taken as one step (41_keymatrix.md R106, R110): KEYSTEP for every key in traversal order,
cut short when an invariant violation has put the block in `Failed` (60_exceptions.md R152). -/
def State.dispatchAll (s : State) (h : Half) : State :=
  (keyOrder s.cfg).foldl (fun t k => if t.phase = .failed then t else t.opKeystep h k.1 k.2) s

end Sys2Proof.Machine
end

