-- ==== Sys2Proof/Machine/Lifecycle.lean ====
section
/-! DEFINITION. The meanings of the system operations: INIT and STOP (44_lifecycle.md). -/

namespace Sys2Proof.Machine

/-- Every existing key in the steady state of pol, the counter saturated (44_lifecycle.md R142). -/
def State.initKeys (s : State) (pol : Level) : State :=
  s.withKeys (Vector.ofFn fun r => Vector.ofFn fun c =>
    if inMatrix s.cfg r c then Debouncer.initial s.cfg.steady pol else s.key r c)

/-- Every existing bit of the StateStore <- pol (44_lifecycle.md R142). -/
def State.initSs (s : State) (pol : Level) : State :=
  s.withSs (Vector.ofFn fun r =>
    if inRow s.cfg r then
      if pol then s.ss[r.val] ||| colMask s.cfg.cols else s.ss[r.val] &&& ~~~(colMask s.cfg.cols)
    else s.ss[r.val])

/-- A successful INIT (44_lifecycle.md R142): the relay is emptied when INIT_CLEARS_RELAY, and always by the first
INIT after power-on.  No dispatch is in progress after it, and no key step: one that STOP cut off from its dispatch is
given up, since every key starts anew (log entry 9). -/
def State.initReady (s : State) (pol : Level) : State :=
  let t := (s.initKeys pol).initSs pol
  let t := t.withEq (if s.cfg.initClearsRelay || s.phase == .uninit then [] else s.eq)
  ((t.endDispatch).withFcode 0#4).withPhase .ready

/-- `INIT pol` (44_lifecycle.md R142): refused in Failed and during a dispatch; a configuration error takes its
fault; the answer is zext_16(fcode). -/
def execInit (pol : Level) (s : State) : Host.Outcome State Fault Refusal :=
  .next
    (if s.phase = .failed || s.busy then s.refuse .illegalPhase
    else
      let t := if configValid s.cfg then s.initReady pol else s.takeFault (configError s.cfg)
      t.doneWith (t.fcode.setWidth 16))

/-- `STOP` (44_lifecycle.md R144): with STOP_ABORTS_DISPATCH a dispatch in progress ends, the remaining key steps are
not done; else nothing. -/
def execStop (s : State) : Host.Outcome State Fault Refusal :=
  .next (if s.cfg.stopAbortsDispatch && s.busy then s.abortDispatch.done else s.done)

end Sys2Proof.Machine
end

