-- ==== Sys2Proof/Machine/StateStore.lean ====
section
/-! DEFINITION. The meanings of the StateStore's operations: SSWR, SSRD and SSRDROW (42_statestore.md). -/

namespace Sys2Proof.Machine

/-- `SSWR r, c, b` (42_statestore.md R120). -/
def execSswr (r c : Idx) (b : Level) (s : State) : Host.Outcome State Fault Refusal :=
  .next (if inMatrix s.cfg r c then s.opSswr r c b else s.refuse .badIndex)

/-- `SSRD r, c` (42_statestore.md R122): phase, then index, then the read. -/
def execSsrd (r c : Idx) (s : State) : Host.Outcome State Fault Refusal :=
  .next
    (if s.phase = .ready then
      if inMatrix s.cfg r c then s.doneWith (Word.ofLevel (s.ssBit r c)) else s.refuse .badIndex
    else s.refuse .illegalPhase)

/-- `SSRDROW r` (42_statestore.md R123). -/
def execSsrdrow (r : Idx) (s : State) : Host.Outcome State Fault Refusal :=
  .next
    (if s.phase = .ready then
      if inRow s.cfg r then s.doneWith (s.ssRow r) else s.refuse .badIndex
    else s.refuse .illegalPhase)

end Sys2Proof.Machine
end

