-- ==== Sys2Proof/Machine/Dispatch.lean ====
section
/-! DEFINITION. The dispatch from an operation to its meaning, one arm per constructor of Instr. -/

namespace Sys2Proof.Machine

def exec (i : Instr) (s : State) : Host.Outcome State Fault Refusal :=
  match i with
  | .init pol => Sys2Proof.Machine.execInit pol s
  | .sbwr h r w => Sys2Proof.Machine.execSbwr h r w s
  | .notify h => Sys2Proof.Machine.execNotify h s
  | .ssrd r c => Sys2Proof.Machine.execSsrd r c s
  | .ssrdrow r => Sys2Proof.Machine.execSsrdrow r s
  | .erpop => Sys2Proof.Machine.execErpop s
  | .stop => Sys2Proof.Machine.execStop s
  | .debupd r c b => Sys2Proof.Machine.execDebupd r c b s
  | .debout r c => Sys2Proof.Machine.execDebout r c s
  | .sswr r c b => Sys2Proof.Machine.execSswr r c b s
  | .erpush r c o => Sys2Proof.Machine.execErpush r c o s
  | .sbrd h r => Sys2Proof.Machine.execSbrd h r s
  | .keystep h r c => Sys2Proof.Machine.execKeystep h r c s

end Sys2Proof.Machine
end

