-- ==== Sys2Proof/Machine/Engine.lean ====
section
/-! DEFINITION. Who moves: the engine's turns inside a dispatch (41_keymatrix.md R105, R106, R112), a command word at
a port (30_encoding.md R67, R69), a bench word, and power-on. -/

namespace Sys2Proof.Machine

/-- The outcome with f applied to its next state. -/
def Outcome.andThen (o : Host.Outcome State Fault Refusal) (f : State → State) : Host.Outcome State Fault Refusal :=
  match o with
  | .next s => .next (f s)
  | .fault r => .fault r
  | .refused r => .refused r

/-- The micro operation the engine performs next for the key (r,c) it works on (41_keymatrix.md R105): the
sample is the pin of the latched word, the bit published and forwarded is the latched output. -/
def State.nextMicro (s : State) (r c : Idx) : Instr :=
  match s.stage with
  | .keyStart => .sbrd s.cur.h r
  | .update => .debupd r c (pinSelect s.cfg s.latch.word r c)
  | .output => .debout r c
  | .publish => .sswr r c s.latch.output
  | .forward => .erpush r c s.latch.output

/-- Where the engine stands after the micro operation of stage g: after DEBUPD it goes on only when `changed` = 1
(41_keymatrix.md R105). -/
def State.afterMicro (g : Stage) (s : State) : State :=
  match g with
  | .keyStart => s.withStage .update
  | .update => if s.latch.changed then s.withStage .output else s.finishKey
  | .output => s.withStage .publish
  | .publish => s.withStage .forward
  | .forward => s.finishKey

/-- The engine performs its next micro operation; without a dispatch in progress, or a key step that STOP cut off from
one, it does nothing (41_keymatrix.md R112, 70_reset_and_hazards.md R183, log entry 9). -/
def turnMicro (s : State) : Host.Outcome State Fault Refusal :=
  if s.active then
    match s.dueKey with
    | none => .next s.endDispatch
    | some k => Outcome.andThen (exec (s.nextMicro k.1 k.2) s) (State.afterMicro s.stage)
  else .next s

/-- The engine performs its next key step as one KEYSTEP; inside a key step it performs the next micro operation
(41_keymatrix.md R106, R112). -/
def turnKey (s : State) : Host.Outcome State Fault Refusal :=
  if s.active && s.stage == .keyStart then
    match s.dueKey with
    | none => .next s.endDispatch
    | some k => Outcome.andThen (exec (.keystep s.cur.h k.1 k.2) s) State.finishKey
  else turnMicro s

/-- A command word at a port: decoded, then executed; a word that matches no port operation is refused with
IllegalCommand (30_encoding.md R69, 60_exceptions.md R153). -/
def servePort (w : CmdWord) (s : State) : Host.Outcome State Fault Refusal :=
  match decodePort w with
  | .ok i => exec i s
  | .error _ => .next (s.refuse .illegalCommand)

/-- A micro operation driven by a test bench on the components; any other word is answered as an illegal command
(log entry 8). -/
def serveBench (w : CmdWord) (s : State) : Host.Outcome State Fault Refusal :=
  match decodeMicro w with
  | .ok i => exec i s
  | .error _ => .next (s.refuse .illegalCommand)

/-- One move. -/
def serve (m : Slot) (s : State) : Host.Outcome State Fault Refusal :=
  match m with
  | .port w => servePort w s
  | .engineMicro => turnMicro s
  | .engineKey => turnKey s
  | .bench w => serveBench w s
  | .powerOn => .next s.resetPower

/-- The next move: the head of the inbox is taken; when the outside world makes no move the engine runs, and an idle
block does nothing (41_keymatrix.md R112, 70_reset_and_hazards.md R183). -/
def nextMove (s : State) : Host.Outcome State Fault Refusal :=
  match s.inbox with
  | [] => turnKey s
  | m :: rest => serve m (s.withInbox rest)

/-- Where a command word is presented so that it is taken next: a micro operation's word at the bench, every other
word at a port (log entry 7). -/
def slotOf (w : CmdWord) : Slot :=
  match decodeMicro w with
  | .ok _ => .bench w
  | .error _ => .port w

/-- The state in which the command word is the next move. -/
def presentWord (s : State) (w : CmdWord) : State := s.withInbox (slotOf w :: s.inbox)

end Sys2Proof.Machine
end

