-- ==== Sys2Proof/Machine/Step.lean ====
section
/-! DEFINITION. One step of the machine, and the placing of an instruction where the next step takes it. -/

namespace Sys2Proof.Machine

/-- One step: the next move (41_keymatrix.md R112, 60_exceptions.md R160, log entry 7). -/
def step (s : State) : Host.Outcome State Fault Refusal := nextMove s

/-- s with the command word of nbits bits presented so that the very next step takes it (log entry 7). -/
def State.withFetchWord (s : State) (nbits w : Nat) : State := presentWord s (BitVec.ofNat 32 (w % 2 ^ nbits))

end Sys2Proof.Machine
end

