-- ==== Sys2Proof/Machine/Assembly.lean ====
section
/-! DEFINITION. The pseudo-operations, the mnemonic lines and the trace lines (30_encoding.md R71, R72, R73), and the
Row Driver's side of the protocol (41_keymatrix.md R116). -/

namespace Sys2Proof.Machine

/-- `FIELD h, w0, w1, ...`: the Row Driver captures one field into half h and announces it (30_encoding.md R72). -/
def fieldOps (P : Config) (h : Half) (words : Idx → Word) : List Instr :=
  (((List.finRange 16).filter fun r => inRow P r).map fun r => .sbwr h r (words r)) ++ [.notify h]

/-- The other half of the SnapshotBuffer. -/
def Half.other (h : Half) : Half := if h = 0 then 1 else 0

/-- `SCAN n, w0, w1, ...`: n fields of the same words, the halves alternating from h (30_encoding.md R72). -/
def scanOps (P : Config) (words : Idx → Word) : Nat → Half → List Instr
  | 0, _ => []
  | n + 1, h => fieldOps P h words ++ scanOps P words n (Half.other h)

/-- `READALL`: SSRDROW of every row (30_encoding.md R72). -/
def readAllOps (P : Config) : List Instr := ((List.finRange 16).filter fun r => inRow P r).map fun r => .ssrdrow r

/-- `DRAIN`: ERPOP repeated until an answer has valid = 0; from a queue of n records, without pushes in between, that
is n + 1 pops (30_encoding.md R72, log entry 21). -/
def drainOps (s : State) : List Instr := List.replicate (s.eq.length + 1) .erpop

/-- The moves of a list of port operations. -/
def portSlots (ops : List Instr) : List Slot := ops.map fun i => .port (encode i)

/-- The half the Row Driver captures into in row-activation period n (41_keymatrix.md R116). -/
def driverHalf (P : Config) (n : Nat) : Half := if n / P.rows % 2 = 0 then 0 else 1

/-- The slot the Row Driver captures into in row-activation period n (41_keymatrix.md R116). -/
def driverSlot (P : Config) (n : Nat) : Nat := n % P.rows

/-- What the Row Driver does in row-activation period n with the captured word w: one SBWR, and NOTIFY after the last
slot of the half (41_keymatrix.md R116). -/
def driverOps (P : Config) (n : Nat) (w : Word) : List Instr :=
  let store := Instr.sbwr (driverHalf P n) (Fin.ofNat 16 (driverSlot P n)) w
  if driverSlot P n + 1 = P.rows then [store, .notify (driverHalf P n)] else [store]

/-- A level as a trace prints it. -/
def levelText (b : Level) : String := if b then "1" else "0"

/-- The mnemonic line of an operation (30_encoding.md R71). -/
def asmLine : Instr → String
  | .init pol => "INIT " ++ (if pol then "hi" else "lo")
  | .sbwr h r w => "SBWR " ++ toString h.val ++ ", " ++ toString r.val ++ ", " ++ toString w.toNat
  | .notify h => "NOTIFY " ++ toString h.val
  | .ssrd r c => "SSRD " ++ toString r.val ++ ", " ++ toString c.val
  | .ssrdrow r => "SSRDROW " ++ toString r.val
  | .erpop => "ERPOP"
  | .stop => "STOP"
  | .debupd r c b => "DEBUPD " ++ toString r.val ++ ", " ++ toString c.val ++ ", " ++ levelText b
  | .debout r c => "DEBOUT " ++ toString r.val ++ ", " ++ toString c.val
  | .sswr r c b => "SSWR " ++ toString r.val ++ ", " ++ toString c.val ++ ", " ++ levelText b
  | .erpush r c o => "ERPUSH " ++ toString r.val ++ ", " ++ toString c.val ++ ", " ++ levelText o
  | .sbrd h r => "SBRD " ++ toString h.val ++ ", " ++ toString r.val
  | .keystep h r c => "KEYSTEP " ++ toString h.val ++ ", " ++ toString r.val ++ ", " ++ toString c.val

/-- The result part of a trace line, after `->`, read from the state after the operation (30_encoding.md R68, R73). -/
def traceResult (i : Instr) (t : State) : String :=
  match i with
  | .debupd _ _ _ => " -> changed=" ++ levelText t.latch.changed
  | .debout _ _ => " -> " ++ levelText t.latch.output
  | .sbrd _ _ => " -> " ++ toString t.latch.word.toNat
  | .erpush _ _ _ => " -> taken=" ++ levelText t.latch.taken
  | .sswr _ _ _ => ""
  | .keystep _ _ _ => ""
  | .init _ | .sbwr _ _ _ | .notify _ | .ssrd _ _ | .ssrdrow _ | .erpop | .stop =>
    match t.answer with
    | some { status := _, data := some w } => " -> " ++ toString w.toNat
    | _ => ""

/-- A trace line: micro operations are indented under their NOTIFY (30_encoding.md R73). -/
def traceLine (i : Instr) (t : State) : String :=
  (if i.opcode.isPort then "" else "  ") ++ asmLine i ++ traceResult i t

end Sys2Proof.Machine
end

