-- ==== Sys2Proof/Machine/Timing.lean ====
section
/-! DEFINITION. The timing parameters' arithmetic: the field period, the conversion of times to field counts, and the
dispatch budget (00_scope.md R9, R10, R16; 70_reset_and_hazards.md R186).  No step reads a time (log entry 20). -/

namespace Sys2Proof.Machine

/-- `ceil_div(a, b) = (a + b − 1) div b` (00_scope.md R9). -/
def ceilDiv (a b : Nat) : Nat := (a + b - 1) / b

/-- `T_FIELD = T_ROW × ROWS` (00_scope.md R10). -/
def Times.field (t : Times) (rows : Nat) : Nat := t.tRow * rows

/-- STEADY in field-count units (00_scope.md R9). -/
def Times.steady (t : Times) (rows : Nat) : Nat := ceilDiv t.tSteady (Times.field t rows)

/-- TRANSIENT in field-count units (00_scope.md R9). -/
def Times.transient (t : Times) (rows : Nat) : Nat := ceilDiv t.tTransient (Times.field t rows)

/-- The range of the timing parameters (00_scope.md R9, R10, R16). -/
def Times.ok (t : Times) (rows : Nat) : Bool :=
  decide (0 < t.tRow) && decide (0 < t.tSteady) && decide (0 < t.tTransient) && decide (t.tMargin < Times.field t rows)

/-- The time by which the last key step of a dispatch must be done, when its notification is raised at t0
(70_reset_and_hazards.md R186). -/
def Times.deadline (t : Times) (rows t0 : Nat) : Nat := t0 + Times.field t rows - t.tMargin

/-- The configuration P with its thresholds converted from times (00_scope.md R9); the result must still pass the
configuration check. -/
def Config.withTimes (P : Config) (t : Times) : Config :=
  { P with steady := Times.steady t P.rows, transient := Times.transient t P.rows }

end Sys2Proof.Machine
end

