-- ==== Sys2Proof/Machine/UnsignedTwin.lean ====
section
/-! DEFINITION. The unsigned counter encoding that corresponds to DEBUPD under u = k + S (40_debouncer.md R95).  No
step uses it: it is here to be compared with the signed encoding, which the machine runs. -/

namespace Sys2Proof.Machine

/-- A Debouncer with an unsigned counter in [0, max] (40_debouncer.md R95). -/
structure UDebouncer where
  fsm : Fsm
  u : Nat
deriving DecidableEq, Repr

/-- `max = 2S` (R95). -/
def uMax (S : Nat) : Nat := 2 * S

/-- `lo = T` (R95). -/
def uLo (T : Nat) : Nat := T

/-- `hi = 2S − T` (R95). -/
def uHi (S T : Nat) : Nat := 2 * S - T

/-- The counter step, saturating at max and at 0. -/
def uStep (S u : Nat) (sample : Level) : Nat := if sample then min (u + 1) (uMax S) else u - 1

/-- One timestep in the unsigned encoding (R95): a transient state is entered with u = S. -/
def UDebouncer.update (S T : Nat) (d : UDebouncer) (sample : Level) : UDebouncer × Bool :=
  let u1 := uStep S d.u sample
  match d.fsm with
  | .steadyLo =>
    if u1 ≥ uLo T then ({ fsm := .transientLoHi, u := S }, true) else ({ fsm := .steadyLo, u := u1 }, false)
  | .transientLoHi =>
    if u1 = uMax S then ({ fsm := .steadyHi, u := u1 }, false)
    else if u1 = 0 then ({ fsm := .steadyLo, u := u1 }, true)
    else ({ fsm := .transientLoHi, u := u1 }, false)
  | .steadyHi =>
    if u1 ≤ uHi S T then ({ fsm := .transientHiLo, u := S }, true) else ({ fsm := .steadyHi, u := u1 }, false)
  | .transientHiLo =>
    if u1 = 0 then ({ fsm := .steadyLo, u := u1 }, false)
    else if u1 = uMax S then ({ fsm := .steadyHi, u := u1 }, true)
    else ({ fsm := .transientHiLo, u := u1 }, false)

/-- The signed Debouncer of an unsigned one, k = u − S (R95). -/
def UDebouncer.signed (S : Nat) (d : UDebouncer) : Debouncer := { fsm := d.fsm, cnt := (d.u : Int) - S }

end Sys2Proof.Machine
end

