-- ==== Sys2Proof/WellFormed.lean ====
section
/-! DEFINITION. Which operations name existing storage: ROW less than ROWS and COL less than COLS, where the
operation carries them (30_encoding.md R66).  Every other field of an operation is well formed by its type. -/

namespace Sys2Proof

/-- The ROW check of 30_encoding.md R66. -/
def Instr.rowOk (P : Config) (i : Instr) : Bool :=
  match i.row? with
  | none => true
  | some r => decide (r.val < P.rows)

/-- The COL check of 30_encoding.md R66. -/
def Instr.colOk (P : Config) (i : Instr) : Bool :=
  match i.col? with
  | none => true
  | some c => decide (c.val < P.cols)

/-- An operation is well formed for the configuration P when its indices name storage of the block
(30_encoding.md R66, 20_memory.md R43). -/
def Instr.wellFormed (P : Config) (i : Instr) : Bool := i.rowOk P && i.colOk P

end Sys2Proof
end

