-- ==== Sys2Proof/Safety.lean ====
section
/-! DEFINITION. The terms the statements use: what a step leaves unchanged, the reachable set of a Debouncer, the
publication invariant, and the invariant of a block that only its ports and its engine drive. -/

namespace Sys2Proof.Machine

/-! ### Frames -/

/-- The fields of State, as names. -/
inductive FieldName where
  | cfg | keys | ss | snap | eq | busy | cur | phase | fcode | faultKey | answer
  | stage | latch | cutKey | inbox | draws
deriving DecidableEq, Repr

/-- The field has the same value in both states. -/
def FieldName.same (f : FieldName) (s t : State) : Prop :=
  match f with
  | .cfg => t.cfg = s.cfg
  | .keys => t.keys = s.keys
  | .ss => t.ss = s.ss
  | .snap => t.snap = s.snap
  | .eq => t.eq = s.eq
  | .busy => t.busy = s.busy
  | .cur => t.cur = s.cur
  | .phase => t.phase = s.phase
  | .fcode => t.fcode = s.fcode
  | .faultKey => t.faultKey = s.faultKey
  | .answer => t.answer = s.answer
  | .stage => t.stage = s.stage
  | .latch => t.latch = s.latch
  | .cutKey => t.cutKey = s.cutKey
  | .inbox => t.inbox = s.inbox
  | .draws => t.draws = s.draws

/-- Every field but the listed ones has the same value in s and t. -/
def OnlyChanges (fs : List FieldName) (s t : State) : Prop := ∀ f : FieldName, f ∉ fs → f.same s t

/-- Every Debouncer but that of key (r,c) is the same in s and t. -/
def OtherKeysSame (r c : Idx) (s t : State) : Prop := ∀ r' c' : Idx, (r', c') ≠ (r, c) → t.key r' c' = s.key r' c'

/-- Every bit of every StateStore row word but bit (r,c) is the same in s and t. -/
def OtherBitsSame (r c : Idx) (s t : State) : Prop := ∀ r' c' : Idx, (r', c') ≠ (r, c) → t.ssBit r' c' = s.ssBit r' c'

/-- Every snapshot word but that of (h,r) reads the same in s and t. -/
def OtherWordsSame (h : Half) (r : Idx) (s t : State) : Prop :=
  ∀ (h' : Half) (r' : Idx), (h', r') ≠ (h, r) → t.snapWord h' r' = s.snapWord h' r'

/-- The answer of the last operation is the status of code c with this data (30_encoding.md R68). -/
def State.answers (t : State) (c : Code) (data : Option Word) : Prop := t.answer = some { status := c.num, data := data }

/-- An operation was refused with code c: its answer is the code and nothing else of the state changed
(30_encoding.md R68). -/
def Refused (c : Code) (s t : State) : Prop := t.answers c none ∧ OnlyChanges [.answer] s t

/-! ### Debouncers -/

/-- The reachable set `Reach` of a Debouncer (10_state.md R24). -/
def Reach (S T : Int) (d : Debouncer) : Prop :=
  match d.fsm with
  | .steadyLo => -S ≤ d.cnt ∧ d.cnt ≤ -(S - T) - 1
  | .transientLoHi => -S + 1 ≤ d.cnt ∧ d.cnt ≤ S - 1
  | .steadyHi => S - T + 1 ≤ d.cnt ∧ d.cnt ≤ S
  | .transientHiLo => -S + 1 ≤ d.cnt ∧ d.cnt ≤ S - 1

/-- The mirror image of an FSM state (40_debouncer.md R96). -/
def Fsm.mirror : Fsm → Fsm
  | .steadyLo => .steadyHi
  | .transientLoHi => .transientHiLo
  | .steadyHi => .steadyLo
  | .transientHiLo => .transientLoHi

/-- The mirror image of a Debouncer (40_debouncer.md R96). -/
def Debouncer.mirror (d : Debouncer) : Debouncer := { fsm := d.fsm.mirror, cnt := -d.cnt }

/-- The transient state that is heading for polarity o (40_debouncer.md R81). -/
def Fsm.transientTo (o : Level) : Fsm := if o then .transientLoHi else .transientHiLo

/-- One vote: +1 for a true sample, −1 for a false one (40_debouncer.md R82). -/
def vote (x : Level) : Int := if x then 1 else -1

/-- The sum of the votes of a list of samples. -/
def votes (xs : List Level) : Int := (xs.map vote).sum

/-- n samples that alternate every field, beginning with b. -/
def alternating : Nat → Level → List Level
  | 0, _ => []
  | n + 1, b => b :: alternating n (!b)

/-! ### The block -/

/-- The keys of the matrix all have a reachable Debouncer (10_state.md R24). -/
def KeysReach (s : State) : Prop :=
  ∀ r c : Idx, inMatrix s.cfg r c = true → Reach s.cfg.steady s.cfg.transient (s.key r c)

/-- The published bit of key (r,c) is the output of its Debouncer (41_keymatrix.md R111). -/
def Published (s : State) (r c : Idx) : Prop := s.ssBit r c = (s.key r c).fsm.out

/-- The engine has changed the output of the key it works on and not yet stored it: between the DEBUPD and the SSWR of
one key step (41_keymatrix.md R105). -/
def AwaitingStore (s : State) (r c : Idx) : Prop :=
  s.active = true ∧ (s.stage = .output ∨ s.stage = .publish) ∧ s.dueKey = some (r, c)

/-- The published bits agree with the outputs, but for the key whose store is still to come: the publication
invariant at the granularity of micro operations (41_keymatrix.md R111). -/
def PublicationHolds (s : State) : Prop :=
  ∀ r c : Idx, inMatrix s.cfg r c = true →
    (¬ AwaitingStore s r c → Published s r c) ∧
    (AwaitingStore s r c → s.ssBit r c = !(s.key r c).fsm.out)

/-- Once DEBOUT has been done in a key step, the latched output is the output of the key (41_keymatrix.md R105). -/
def OutputLatched (s : State) : Prop :=
  ∀ r c : Idx, s.dueKey = some (r, c) → s.stage = .publish ∨ s.stage = .forward → s.latch.output = (s.key r c).fsm.out

/-- No move still to come is a test bench's (log entry 8): the block is driven by its ports, its engine and power. -/
def NoBench (s : State) : Prop := ∀ w : CmdWord, Slot.bench w ∉ s.inbox

/-- The lifecycle registers agree (10_state.md R30, R32, R33; 44_lifecycle.md R142): a dispatch runs only in Ready and
with its cursor on a key; a key step that STOP cut off from its dispatch is one in progress, in Ready, of a key of the
matrix; a key step is in progress only in a dispatch or after such a STOP; Ready was entered with a valid configuration;
fcode is 0 outside Failed and one of the codes 1 to 5 in it. -/
def LifecycleOk (s : State) : Prop :=
  (s.busy = true → s.phase = .ready ∧ (s.cursorKey).isSome = true) ∧
  (∀ r c : Idx, s.cutKey = some (r, c) → s.phase = .ready ∧ s.stage ≠ .keyStart ∧ inMatrix s.cfg r c = true) ∧
  (s.active = false → s.stage = .keyStart) ∧
  (s.phase = .ready → configValid s.cfg = true) ∧
  (s.phase ≠ .failed → s.fcode = Code.none.num) ∧
  (s.phase = .failed → 1 ≤ s.fcode.toNat ∧ s.fcode.toNat ≤ 5)

/-- The invariant of the block. -/
structure Inv (s : State) : Prop where
  /-- The snapshot memory is in canonical form. -/
  memory : Memory.wf s.snap
  /-- The queue holds at most QUEUE_CAP records (10_state.md R28). -/
  queue : s.eq.length ≤ s.cfg.queueCap
  /-- The lifecycle registers agree. -/
  lifecycle : LifecycleOk s
  /-- In Ready every key is in the reachable set (10_state.md R24). -/
  reach : s.phase = .ready → KeysReach s
  /-- In Ready the published bits agree with the outputs (41_keymatrix.md R111). -/
  published : s.phase = .ready → PublicationHolds s
  /-- The latched output is the output of the key in progress. -/
  latched : OutputLatched s
  /-- No bench move is to come. -/
  noBench : NoBench s

/-- The end of a run: no dispatch in progress, no key step in progress after a STOP, no move to come
(70_reset_and_hazards.md R194). -/
def Quiescent (s : State) : Prop := s.phase = .ready ∧ s.busy = false ∧ s.cutKey = none ∧ s.inbox = []

/-- Every word of half h that the matrix uses has been written since power-on (41_keymatrix.md R102, R116). -/
def HalfWritten (s : State) (h : Half) : Prop := ∀ r : Idx, inRow s.cfg r = true → (s.snapWord h r).isSome = true

/-- The sample a dispatch of half h takes for key (r,c), when the word has been written (41_keymatrix.md R104, R110). -/
def State.sampleOf (s : State) (h : Half) (r c : Idx) : Level := pinSelect s.cfg ((s.snapWord h r).getD 0#16) r c

/-- What one debounce timestep of key (r,c) with the sample of half h gives, from the state s (41_keymatrix.md R110). -/
def State.keyAfter (s : State) (h : Half) (r c : Idx) : Debouncer × Bool :=
  (s.key r c).update s.cfg.steady s.cfg.transient (s.sampleOf h r c)

/-- The events a dispatch of half h offers to the relay, in row-major order (41_keymatrix.md R110). -/
def State.offeredEvents (s : State) (h : Half) : List Event :=
  ((keyOrder s.cfg).filter fun k => (s.keyAfter h k.1 k.2).2).map fun k =>
    { row := k.1, col := k.2, output := (s.keyAfter h k.1 k.2).1.fsm.out }

/-- The outcome of n steps of the machine, stopping at the first fault or refusal. -/
abbrev runSteps (n : Nat) (s : State) : Host.Outcome State Fault Refusal := Host.Core.run Sys2Proof.core n s

end Sys2Proof.Machine
end

