-- ==== Sys2Proof/Certificates/Slice0/Obligations.lean ====
section
/-! DEFINITION. The statements about KMDB, from the numbered rules of the spec. -/

open Sys2Proof Sys2Proof.Machine

/-! ### Encoding -/

/-- Decoding the encoded word of an operation gives the operation back, for every operand value
(30_encoding.md sections 2 and 4). -/
def Obligations.DecodeOfEncodeIsIdentity : Prop := ∀ i : Instr, decode (encode i) = .ok i

/-- A word that decodes is the encoded word of what it decodes to: no bit of a command word is ignored. -/
def Obligations.EncodeOfDecodeIsIdentity : Prop := ∀ (w : CmdWord) (i : Instr), decode w = .ok i → encode i = w

/-- The decoder agrees with the match and mask of the opcode table. -/
def Obligations.DecoderAgreesWithTable : Prop :=
  ∀ (w : CmdWord) (i : Instr), decode w = .ok i ↔ ∃ o : Opcode, o.selects w = true ∧ i = o.build (Fields.unpack w)

/-- R70: for any 32-bit word the decoder either finds exactly one row or there is none and a port answers
IllegalCommand. -/
def Obligations.DecoderTotalAndUnambiguous : Prop :=
  ∀ w : CmdWord,
    (∃ o : Opcode, o.selects w = true ∧ (∀ o' : Opcode, o'.selects w = true → o' = o) ∧
      decode w = .ok (o.build (Fields.unpack w))) ∨
    ((∀ o : Opcode, o.selects w = false) ∧
      ∀ (s : State) (rest : List Slot), s.inbox = .port w :: rest →
        ∃ t, step s = .next t ∧ Refused .illegalCommand (s.withInbox rest) t)

/-- R153: a word at a port that matches no port operation is refused with status 8 and no state changed. -/
def Obligations.IllegalCommandAtPort : Prop :=
  ∀ (s : State) (w : CmdWord) (rest : List Slot), s.inbox = .port w :: rest →
    (∀ o : Opcode, o.isPort = true → o.selects w = false) →
    ∃ t, step s = .next t ∧ t.inbox = rest ∧ t.answer = some { status := 8#4, data := none } ∧
      OnlyChanges [.answer, .inbox] s t

/-- A step runs the operation the word decodes to, after taking the word from the inbox: a port operation at a port, a
micro operation at the bench (the model's own, log entry 8).  In the engine's turns (log entries 6, 7 and 9) it runs what
is due for the key the engine works on: a micro operation; between two key steps, on a turn for a key step or with an
empty inbox, the whole key step; inside a key step, on those same turns, the next micro operation.  A turn left to an
engine with nothing to do changes nothing but the inbox. -/
def Obligations.StepRunsDecodedInstruction : Prop :=
  (∀ (s : State) (w : CmdWord) (rest : List Slot) (i : Instr), s.inbox = .port w :: rest → decode w = .ok i →
    i.opcode.isPort = true → step s = exec i (s.withInbox rest)) ∧
  (∀ (s : State) (w : CmdWord) (rest : List Slot) (i : Instr), s.inbox = .bench w :: rest → decode w = .ok i →
    i.opcode.isPort = false → step s = exec i (s.withInbox rest)) ∧
  (∀ (s : State) (rest : List Slot) (r c : Idx), s.inbox = .engineMicro :: rest → s.active = true →
    s.dueKey = some (r, c) →
    step s = Outcome.andThen (exec (s.nextMicro r c) (s.withInbox rest)) (State.afterMicro s.stage)) ∧
  (∀ (s : State) (r c : Idx), s.active = true → s.stage = .keyStart → s.dueKey = some (r, c) →
    ((s.inbox = [] → step s = Outcome.andThen (exec (.keystep s.cur.h r c) s) State.finishKey) ∧
     ∀ rest, s.inbox = .engineKey :: rest →
      step s = Outcome.andThen (exec (.keystep s.cur.h r c) (s.withInbox rest)) State.finishKey)) ∧
  (∀ (s : State) (r c : Idx), s.active = true → s.stage ≠ .keyStart → s.dueKey = some (r, c) →
    ((s.inbox = [] → step s = Outcome.andThen (exec (s.nextMicro r c) s) (State.afterMicro s.stage)) ∧
     ∀ rest, s.inbox = .engineKey :: rest →
      step s = Outcome.andThen (exec (s.nextMicro r c) (s.withInbox rest)) (State.afterMicro s.stage))) ∧
  (∀ s : State, s.active = false →
    ((s.inbox = [] → step s = .next s) ∧
     ∀ rest, s.inbox = .engineMicro :: rest ∨ s.inbox = .engineKey :: rest → step s = .next (s.withInbox rest))) ∧
  (∀ s : State, s.cutKey = none → s.active = s.busy ∧ s.dueKey = s.cursorKey)

/-- The command words the spec writes out decode to the operations it names (95_test_vectors.md E-1, E-2). -/
def Obligations.CommandWordsDecode : Prop :=
  decode 0x10000000#32 = .ok (.init false) ∧ decode 0x10000001#32 = .ok (.init true) ∧
  decode 0x21300021#32 = .ok (.sbwr 1 3 0x0021#16) ∧ decode 0x31000000#32 = .ok (.notify 1) ∧
  decode 0x40250000#32 = .ok (.ssrd 2 5) ∧ decode 0x50F00000#32 = .ok (.ssrdrow 15) ∧
  decode 0x60000000#32 = .ok .erpop ∧ decode 0x70000000#32 = .ok .stop ∧
  decode 0x90FF0001#32 = .ok (.debupd 15 15 true) ∧ decode 0xA0340000#32 = .ok (.debout 3 4) ∧
  decode 0xB0200001#32 = .ok (.sswr 2 0 true) ∧ decode 0xC0250001#32 = .ok (.erpush 2 5 true) ∧
  decode 0xD1200000#32 = .ok (.sbrd 1 2) ∧ decode 0xE1FF0000#32 = .ok (.keystep 1 15 15) ∧
  decode 0x21310021#32 = .error (.mustBeZero .sbwr) ∧ decode 0x00000000#32 = .error (.reservedOp 0#4)

/-! ### Encodings of state -/

/-- R60: the codes of the four FSM states, all four legal; out is the exclusive or of the two bits, bit 1 is 0 on the
Lo-to-Hi side, bit 0 tells steady from transient. -/
def Obligations.FsmStateCodes : Prop :=
  Fsm.code .steadyLo = 0b00#2 ∧ Fsm.code .transientLoHi = 0b01#2 ∧ Fsm.code .steadyHi = 0b10#2 ∧
  Fsm.code .transientHiLo = 0b11#2 ∧
  (∀ b : BitVec 2, (Fsm.ofCode b).code = b) ∧
  (∀ f : Fsm, Fsm.ofCode f.code = f ∧ f.out = (f.code.getLsbD 1 ^^ f.code.getLsbD 0) ∧
    (f.code.getLsbD 1 = false ↔ f = .steadyLo ∨ f = .transientLoHi) ∧
    (f.code.getLsbD 0 = false ↔ f = .steadyLo ∨ f = .steadyHi))

/-- The CW-bit two's-complement register holds every counter value of a configuration that passes the counter-width
check, STEADY ≤ 2^(CW−1) − 1. -/
def Obligations.CounterRegisterHoldsRange : Prop :=
  ∀ (P : Config) (k : Int), counterWidthOk P = true → -(P.steady : Int) ≤ k → k ≤ P.steady →
    (cntRegister P.cw k).toInt = k

/-- R64: the event word of a record, and of the empty answer. -/
def Obligations.EventWordFields : Prop :=
  (∀ e : Event, e.word.extractLsb' 0 4 = BitVec.ofFin e.col ∧ e.word.extractLsb' 4 4 = BitVec.ofFin e.row ∧
    e.word.getLsbD 8 = e.output ∧ e.word.extractLsb' 9 6 = 0#6 ∧ e.word.getLsbD 15 = true) ∧
  (∀ (s : State) (w : Word), s.phase = .ready → (∃ t, exec .erpop s = .next t ∧ t.answers .none (some w)) →
    (w.getLsbD 15 = false ↔ s.eq = [])) ∧
  Event.word { row := 2, col := 5, output := true } = 0x8125#16 ∧
  Event.word { row := 0, col := 0, output := false } = 0x8000#16 ∧ emptyEventWord = 0x0000#16

/-! ### The Debouncer -/

/-- R81 and R91: the output is a pure function of the FSM state, a transient state carrying the output of the steady
state it is heading for; after any sequence of updates it is Hi exactly in TransientLoHi and SteadyHi. -/
def Obligations.OutputOfState : Prop :=
  (Fsm.out .steadyLo = false ∧ Fsm.out .transientHiLo = false ∧ Fsm.out .transientLoHi = true ∧
    Fsm.out .steadyHi = true ∧ ∀ o : Level, (Fsm.transientTo o).out = (Fsm.steadyOf o).out) ∧
  ∀ (S T : Nat) (d : Debouncer) (xs : List Level),
    (d.feed S T xs).fsm.out = true ↔ ((d.feed S T xs).fsm = .transientLoHi ∨ (d.feed S T xs).fsm = .steadyHi)

/-- R82: the saturating step.  It stays in [−S, +S]; it equals the form that tests for the bound before it adds; the
intermediate value lies in [−S−1, S+1], which a CW-bit two's-complement adder holds when S ≤ 2^(CW−1) − 2. -/
def Obligations.SaturatingStep : Prop :=
  ∀ (S : Nat) (k : Int), -(S : Int) ≤ k → k ≤ S →
    satInc S k = min (k + 1) S ∧ satDec S k = max (k - 1) (-S) ∧
    (∀ x : Level, -(S : Int) ≤ stepCounter S k x ∧ stepCounter S k x ≤ S) ∧
    stepCounter S k true = satInc S k ∧ stepCounter S k false = satDec S k ∧
    satInc S k = (if k = S then (S : Int) else k + 1) ∧ satDec S k = (if k = -S then -(S : Int) else k - 1) ∧
    (-(S : Int) - 1 ≤ k - 1 ∧ k + 1 ≤ S + 1) ∧
    ∀ cw : Nat, 2 * S + 4 ≤ 2 ^ cw →
      (cntRegister cw k + cntRegister cw 1).toInt = k + 1 ∧ (cntRegister cw k - cntRegister cw 1).toInt = k - 1

/-- R85: the complete transition table of DEBUPD, row by row, the output of each state, no edge between the two steady
states nor between the two transient ones, and so every path from one steady state to the other passes through the
transient state of its direction. -/
def Obligations.TransitionTable : Prop :=
  ∀ S T : Nat, 0 < T → T < S →
    (∀ (k : Int) (x : Level), -(S : Int) ≤ k → k ≤ S →
      let k1 := stepCounter S k x
      (k1 < -((S : Int) - T) → Debouncer.update S T ⟨.steadyLo, k⟩ x = (⟨.steadyLo, k1⟩, false)) ∧
      (k1 ≥ -((S : Int) - T) → Debouncer.update S T ⟨.steadyLo, k⟩ x = (⟨.transientLoHi, 0⟩, true)) ∧
      (-(S : Int) < k1 ∧ k1 < S → Debouncer.update S T ⟨.transientLoHi, k⟩ x = (⟨.transientLoHi, k1⟩, false)) ∧
      (k1 = S → Debouncer.update S T ⟨.transientLoHi, k⟩ x = (⟨.steadyHi, S⟩, false)) ∧
      (k1 = -(S : Int) → Debouncer.update S T ⟨.transientLoHi, k⟩ x = (⟨.steadyLo, -S⟩, true)) ∧
      (k1 > (S : Int) - T → Debouncer.update S T ⟨.steadyHi, k⟩ x = (⟨.steadyHi, k1⟩, false)) ∧
      (k1 ≤ (S : Int) - T → Debouncer.update S T ⟨.steadyHi, k⟩ x = (⟨.transientHiLo, 0⟩, true)) ∧
      (-(S : Int) < k1 ∧ k1 < S → Debouncer.update S T ⟨.transientHiLo, k⟩ x = (⟨.transientHiLo, k1⟩, false)) ∧
      (k1 = -(S : Int) → Debouncer.update S T ⟨.transientHiLo, k⟩ x = (⟨.steadyLo, -S⟩, false)) ∧
      (k1 = S → Debouncer.update S T ⟨.transientHiLo, k⟩ x = (⟨.steadyHi, S⟩, true))) ∧
    (∀ (d : Debouncer) (x : Level) (o : Level),
      (d.fsm = Fsm.steadyOf o → (d.update S T x).1.fsm ≠ Fsm.steadyOf (!o)) ∧
      (d.fsm = Fsm.transientTo o → (d.update S T x).1.fsm ≠ Fsm.transientTo (!o))) ∧
    (∀ (d : Debouncer) (xs : List Level) (o : Level), d.fsm = Fsm.steadyOf (!o) →
      (d.feed S T xs).fsm = Fsm.steadyOf o →
      ∃ ys zs : List Level, xs = ys ++ zs ∧ (d.feed S T ys).fsm = Fsm.transientTo o) ∧
    (Fsm.out .steadyLo = false ∧ Fsm.out .transientLoHi = true ∧ Fsm.out .steadyHi = true ∧ Fsm.out .transientHiLo = false)

/-- R87: changed = 1 exactly when the output after differs from the output before; the edges one by one. -/
def Obligations.ChangedIffOutputFlips : Prop :=
  ∀ S T : Nat, 0 < T → T < S → ∀ (d : Debouncer) (x : Level),
    let u := d.update S T x
    (u.2 = true ↔ u.1.fsm.out ≠ d.fsm.out) ∧ (u.1.fsm = d.fsm → u.2 = false) ∧
    (∀ o : Level, d.fsm = Fsm.steadyOf (!o) → u.1.fsm = Fsm.transientTo o → u.2 = true) ∧
    (∀ o : Level, d.fsm = Fsm.transientTo o → u.1.fsm = Fsm.steadyOf o → u.2 = false) ∧
    (∀ o : Level, d.fsm = Fsm.transientTo o → u.1.fsm = Fsm.steadyOf (!o) → u.2 = true)

/-- R90: the range law.  From a pair in Reach, and so from INIT, every sequence of samples keeps the pair in Reach and
the counter in [−S, +S]. -/
def Obligations.RangeLaw : Prop :=
  ∀ S T : Nat, 0 < T → T < S →
    (∀ pol : Level, Reach S T (Debouncer.initial S pol)) ∧
    ∀ (d : Debouncer) (xs : List Level), Reach S T d →
      Reach S T (d.feed S T xs) ∧ -(S : Int) ≤ (d.feed S T xs).cnt ∧ (d.feed S T xs).cnt ≤ S

/-- R92: the settling law.  Holding the sample at the output's polarity never reports a change, and after n0 samples the
Debouncer is in the matching steady state with the counter saturated and stays there; the three bounds on n0. -/
def Obligations.SettlingLaw : Prop :=
  ∀ S T : Nat, 0 < T → T < S → ∀ d : Debouncer, Reach S T d →
    let o := d.fsm.out
    let n0 : Int := if o then (S : Int) - d.cnt else (S : Int) + d.cnt
    (∀ n : Nat, d.changes S T (List.replicate n o) = List.replicate n false ∧
      (n0 ≤ n → d.feed S T (List.replicate n o) = Debouncer.initial S o)) ∧
    (d.fsm = Fsm.steadyOf o → n0 ≤ (T : Int) - 1) ∧
    (d.fsm = Fsm.transientTo o → (if o then 0 ≤ d.cnt else d.cnt ≤ 0) → n0 ≤ S) ∧ n0 ≤ 2 * (S : Int) - 1 ∧
    (d = { fsm := Fsm.transientTo o, cnt := if o then -(S : Int) + 1 else (S : Int) - 1 } → n0 = 2 * (S : Int) - 1)

/-- R93: the oscillation law.  From a saturated steady state, with T ≥ 2 an alternating sample never changes the state;
with T = 1 the first opposite sample flips the output and the Debouncer then stays in that transient state, its counter
within one step of 0. -/
def Obligations.OscillationLaw : Prop :=
  ∀ S T : Nat, 0 < T → T < S → ∀ (pol : Level) (n : Nat),
    (2 ≤ T → ∀ b : Level,
      let e := (Debouncer.initial S pol).feed S T (alternating n b)
      e.fsm = Fsm.steadyOf pol ∧ (Debouncer.initial S pol).changes S T (alternating n b) = List.replicate n false ∧
      (if pol then e.cnt = S ∨ e.cnt = (S : Int) - 1 else e.cnt = -(S : Int) ∨ e.cnt = -(S : Int) + 1)) ∧
    (-(S : Int) + 1 < -((S : Int) - T) ↔ 2 ≤ T) ∧
    (T = 1 →
      let e := (Debouncer.initial S pol).feed S T (alternating (n + 1) (!pol))
      e.fsm = Fsm.transientTo (!pol) ∧ -1 ≤ e.cnt ∧ e.cnt ≤ 1 ∧
      (Debouncer.initial S pol).changes S T (alternating (n + 1) (!pol)) = true :: List.replicate n false)

/-- R94: the latency law, for both polarities o: from the saturated opposite steady state the T-th sample o flips the
output and the (T + S)-th confirms it; from the fresh transient state S opposite samples reverse it; and a transient
state is left exactly when the running sum of votes reaches +S or −S. -/
def Obligations.LatencyLaw : Prop :=
  ∀ S T : Nat, 0 < T → T < S → ∀ o : Level,
    let lo := Debouncer.initial S (!o)
    let tr : Debouncer := { fsm := Fsm.transientTo o, cnt := 0 }
    lo.changes S T (List.replicate (T + S) o) = List.replicate (T - 1) false ++ true :: List.replicate S false ∧
    lo.feed S T (List.replicate T o) = tr ∧
    (∀ j : Nat, j < S → (lo.feed S T (List.replicate (T + j) o)).fsm = Fsm.transientTo o) ∧
    lo.feed S T (List.replicate (T + S) o) = Debouncer.initial S o ∧
    tr.changes S T (List.replicate S (!o)) = List.replicate (S - 1) false ++ [true] ∧
    tr.feed S T (List.replicate S (!o)) = lo ∧
    ∀ xs : List Level, (∀ ys zs : List Level, xs = ys ++ zs → zs ≠ [] → -(S : Int) < votes ys ∧ votes ys < S) →
      (-(S : Int) < votes xs ∧ votes xs < S → tr.feed S T xs = { fsm := Fsm.transientTo o, cnt := votes xs }) ∧
      (votes xs = S → tr.feed S T xs = Debouncer.initial S true) ∧
      (votes xs = -(S : Int) → tr.feed S T xs = Debouncer.initial S false)

/-- R96: the Lo side and the Hi side are mirror images. -/
def Obligations.MirrorLaw : Prop :=
  ∀ (S T : Nat) (d : Debouncer) (x : Level),
    d.mirror.update S T (!x) = ((d.update S T x).1.mirror, (d.update S T x).2)

/-- The unsigned encoding of 40_debouncer.md section 6 is observably identical to the signed one under u = k + S. -/
def Obligations.UnsignedTwinAgrees : Prop :=
  ∀ S T : Nat, 0 < T → T < S →
    (uLo T < uHi S T ∧ uHi S T < uMax S) ∧
    ∀ (d : UDebouncer) (x : Level), d.u ≤ uMax S →
      (d.update S T x).1.u ≤ uMax S ∧
      (UDebouncer.signed S d).update S T x = (UDebouncer.signed S (d.update S T x).1, (d.update S T x).2)

/-- DEBUPD on a key of the matrix whose counter is in range completes: the pair and `changed` are those of the timestep,
and no other Debouncer and no other part of the state changes. -/
def Obligations.DebupdCompletes : Prop :=
  ∀ (s : State) (r c : Idx) (x : Level), inMatrix s.cfg r c = true → (s.key r c).inRange s.cfg.steady = true →
    ∃ t, exec (.debupd r c x) s = .next t ∧
      t.key r c = ((s.key r c).update s.cfg.steady s.cfg.transient x).1 ∧
      t.latch = { s.latch with changed := ((s.key r c).update s.cfg.steady s.cfg.transient x).2 } ∧
      OtherKeysSame r c s t ∧ OnlyChanges [.keys, .latch] s t

/-- DEBUPD on a key whose counter is out of range: a debug build goes to Failed with fcode 5, ends the dispatch and
records the key; a defensive build changes nothing and reports changed = 0.  That the debug build reports changed = 0 too
is the model's choice (log entry 19); stage, cutKey and latch are the model's own fields (log entries 6 and 9). -/
def Obligations.DebupdViolation : Prop :=
  ∀ (s : State) (r c : Idx) (x : Level), inMatrix s.cfg r c = true → (s.key r c).inRange s.cfg.steady = false →
    ∃ t, exec (.debupd r c x) s = .next t ∧ t.latch = { s.latch with changed := false } ∧
      (s.cfg.buildMode = .defensive → OnlyChanges [.latch] s t) ∧
      (s.cfg.buildMode = .debug → t.phase = .failed ∧ t.fcode = 5#4 ∧ t.busy = false ∧ t.faultKey = some (r, c) ∧
        t.stage = .keyStart ∧ t.cutKey = none ∧
        OnlyChanges [.phase, .fcode, .busy, .faultKey, .stage, .cutKey, .latch] s t)

/-- DEBOUT completes for every key of the matrix: it yields the output of the key and writes nothing else. -/
def Obligations.DeboutCompletes : Prop :=
  ∀ (s : State) (r c : Idx), inMatrix s.cfg r c = true →
    ∃ t, exec (.debout r c) s = .next t ∧
      (t.latch.output = true ↔ ((s.key r c).fsm = .transientLoHi ∨ (s.key r c).fsm = .steadyHi)) ∧
      t.latch = { s.latch with output := t.latch.output } ∧ OnlyChanges [.latch] s t

/-! ### The SnapshotBuffer and the engine -/

/-- SBWR outside the half under dispatch completes: the word is stored whole, every other word reads as before, and
nothing else changes but the answer. -/
def Obligations.SbwrStores : Prop :=
  ∀ (s : State) (h : Half) (r : Idx) (w : Word), Memory.wf s.snap → inRow s.cfg r = true →
    (s.busy = true → s.cur.h ≠ h) →
    ∃ t, exec (.sbwr h r w) s = .next t ∧ t.snapWord h r = some w ∧ OtherWordsSame h r s t ∧ t.answers .none none ∧
      OnlyChanges [.snap, .answer] s t

/-- SBWR to the half under dispatch is the hazard fault Overrun, after the index check. -/
def Obligations.SbwrOverrun : Prop :=
  ∀ (s : State) (h : Half) (r : Idx) (w : Word), s.busy = true → s.cur.h = h →
    (inRow s.cfg r = true → exec (.sbwr h r w) s = .fault (.overrunWrite h r)) ∧
    (inRow s.cfg r = false → ∃ t, exec (.sbwr h r w) s = .next t ∧ Refused .badIndex s t)

/-- SBRD completes for every row: a written word is yielded and nothing else changes, so it may be repeated; a word
nothing has written since power-on yields a free value, and only the count of free values advances beside. -/
def Obligations.SbrdReads : Prop :=
  ∀ (s : State) (h : Half) (r : Idx), inRow s.cfg r = true →
    ∃ t, exec (.sbrd h r) s = .next t ∧ t.latch = { s.latch with word := t.latch.word } ∧
      (∀ w, s.snapWord h r = some w → t.latch.word = w ∧ OnlyChanges [.latch] s t ∧ exec (.sbrd h r) t = .next t) ∧
      (s.snapWord h r = none → t.latch.word = Config.freeWord s.draws ∧ t.draws = s.draws + 1 ∧
        OnlyChanges [.latch, .draws] s t)

/-- KEYSTEP completes on a key whose counter is in range.  The sample is the pin of the snapshot word (a free word where
nothing has written it); the key takes one timestep; only when `changed` is the new output stored in the key's bit and
its event offered to the relay, which takes it exactly when there is room and no early drop. -/
def Obligations.KeystepEffect : Prop :=
  ∀ (s : State) (h : Half) (r c : Idx), inMatrix s.cfg r c = true → (s.key r c).inRange s.cfg.steady = true →
    let w := (s.snapWord h r).getD (Config.freeWord s.draws)
    let u := (s.key r c).update s.cfg.steady s.cfg.transient (w.getLsbD (s.cfg.pin r c))
    ∃ t, exec (.keystep h r c) s = .next t ∧ t.key r c = u.1 ∧ OtherKeysSame r c s t ∧ t.latch.changed = u.2 ∧
      OnlyChanges [.keys, .ss, .eq, .latch, .draws] s t ∧
      (u.2 = false → t.ss = s.ss ∧ t.eq = s.eq) ∧
      (u.2 = true → t.ssBit r c = u.1.fsm.out ∧ OtherBitsSame r c s t ∧
        (s.cfg.queueCap ≤ s.eq.length → t.eq = s.eq) ∧
        (s.eq.length < s.cfg.queueCap → s.cfg.relayMayDropEarly = false →
          t.eq = s.eq ++ [{ row := r, col := c, output := u.1.fsm.out }]) ∧
        (t.eq = s.eq ∨ t.eq = s.eq ++ [{ row := r, col := c, output := u.1.fsm.out }]))

/-- KEYSTEP on a key whose counter is out of range ends before SSWR: nothing is published or forwarded; a debug build
goes to Failed with fcode 5 and ends the dispatch, a defensive build changes no register of the block.  That the debug
build reports changed = 0 too is the model's choice (log entry 19); stage, cutKey, latch and draws are the model's own
fields (log entries 4, 6 and 9). -/
def Obligations.KeystepViolation : Prop :=
  ∀ (s : State) (h : Half) (r c : Idx), inMatrix s.cfg r c = true → (s.key r c).inRange s.cfg.steady = false →
    ∃ t, exec (.keystep h r c) s = .next t ∧ t.latch.changed = false ∧
      (s.cfg.buildMode = .defensive → OnlyChanges [.latch, .draws] s t) ∧
      (s.cfg.buildMode = .debug → t.phase = .failed ∧ t.fcode = 5#4 ∧ t.busy = false ∧ t.faultKey = some (r, c) ∧
        OnlyChanges [.phase, .fcode, .busy, .faultKey, .stage, .cutKey, .latch, .draws] s t)

/-- NOTIFY in Ready with no dispatch in progress completes: busy is set, the cursor is at the first key of the half, and
no Debouncer, no StateStore bit, no snapshot word and no event changes yet.  That it answers status 0 at the acceptance is
the model's choice (log entry 25), and so is that a key step which STOP cut off stays the engine's next work (log
entry 9). -/
def Obligations.NotifyAccepts : Prop :=
  ∀ (s : State) (h : Half), s.phase = .ready → s.busy = false →
    ∃ t, exec (.notify h) s = .next t ∧ t.busy = true ∧ t.cur = { h := h, r := 0, c := 0 } ∧
      (s.cutKey = none → t.stage = .keyStart) ∧ (s.cutKey ≠ none → t.stage = s.stage) ∧
      t.answers .none none ∧ OnlyChanges [.busy, .cur, .stage, .answer] s t

/-- A key step run as its micro operations, one move each, ends in the very state that one whole KEYSTEP move gives: two
moves when the output does not change, five when it does.  An invariant violation reports no change in both builds, which
is the model's choice (log entry 19). -/
def Obligations.MicroOperationsRefineKeystep : Prop :=
  ∀ (s t : State) (rest : List Slot), s.active = true → s.stage = .keyStart → (s.dueKey).isSome = true →
    s.inbox = .engineKey :: rest → step s = .next t →
    runSteps (if t.latch.changed then 5 else 2)
      (s.withInbox (List.replicate (if t.latch.changed then 5 else 2) .engineMicro ++ rest)) = .next t

/-- R110: the atomic view of a dispatch.  In the absence of other moves, from the acceptance of NOTIFY h between two key
steps and with every word of the half written, ROWS × COLS moves of the engine (log entry 7) end the dispatch; every key
has taken exactly one timestep with its sample of the half, every published bit is the output of its Debouncer, and the
queue has taken, in row-major order, as many of the offered events as it had room for; where RELAY_MAY_DROP_EARLY is set it
may have taken fewer, in the same order. -/
def Obligations.DispatchIsOneTimestepOfEveryKey : Prop :=
  ∀ (s : State) (h : Half), Inv s → s.phase = .ready → s.busy = false → s.stage = .keyStart → s.inbox = [] →
    HalfWritten s h →
    ∃ t0 t, exec (.notify h) s = .next t0 ∧ runSteps (s.cfg.rows * s.cfg.cols) t0 = .next t ∧
      t.busy = false ∧ t.stage = .keyStart ∧ t.phase = .ready ∧
      (∀ r c : Idx, inMatrix s.cfg r c = true →
        t.key r c = (s.keyAfter h r c).1 ∧ t.ssBit r c = (s.keyAfter h r c).1.fsm.out) ∧
      (s.cfg.relayMayDropEarly = false →
        t.eq = s.eq ++ (s.offeredEvents h).take (s.cfg.queueCap - s.eq.length)) ∧
      (∃ taken : List Event, taken.Sublist (s.offeredEvents h) ∧ t.eq = s.eq ++ taken ∧
        t.eq.length ≤ s.cfg.queueCap) ∧ t.snap = s.snap

/-! ### The StateStore -/

/-- SSWR completes: exactly one bit of the StateStore is stored, every other bit reads as before, nothing else changes;
storing the value the bit already holds changes nothing at all. -/
def Obligations.SswrStoresOneBit : Prop :=
  ∀ (s : State) (r c : Idx) (b : Level), inMatrix s.cfg r c = true →
    ∃ t, exec (.sswr r c b) s = .next t ∧ t.ssBit r c = b ∧ OtherBitsSame r c s t ∧ OnlyChanges [.ss] s t ∧
      (s.ssBit r c = b → t = s)

/-- SSRD in Ready completes for every key of the matrix: it answers the published bit and changes nothing else. -/
def Obligations.SsrdReads : Prop :=
  ∀ (s : State) (r c : Idx), s.phase = .ready → inMatrix s.cfg r c = true →
    ∃ t, exec (.ssrd r c) s = .next t ∧ t.answers .none (some (if s.ssBit r c then 1#16 else 0#16)) ∧
      OnlyChanges [.answer] s t

/-- SSRDROW in Ready completes for every row: bit c of its answer is ss[r][c] for c < COLS and 0 above, and nothing
else changes. -/
def Obligations.SsrdrowReads : Prop :=
  ∀ (s : State) (r : Idx), s.phase = .ready → inRow s.cfg r = true →
    ∃ (t : State) (w : Word), exec (.ssrdrow r) s = .next t ∧ t.answers .none (some w) ∧ OnlyChanges [.answer] s t ∧
      ∀ c : Idx, w.getLsbD c.val = (decide (c.val < s.cfg.cols) && s.ssBit r c)

/-! ### The EventRelay -/

/-- ERPUSH completes: with room in the queue and no early drop the record is appended at the tail and taken = 1; with
the queue full it is dropped silently and taken = 0; an early drop happens only when RELAY_MAY_DROP_EARLY is set. -/
def Obligations.ErpushOffers : Prop :=
  ∀ (s : State) (r c : Idx) (o : Level), inMatrix s.cfg r c = true →
    ∃ t, exec (.erpush r c o) s = .next t ∧ t.latch = { s.latch with taken := t.latch.taken } ∧
      (t.latch.taken = true → t.eq = s.eq ++ [{ row := r, col := c, output := o }] ∧ s.eq.length < s.cfg.queueCap) ∧
      (t.latch.taken = false → t.eq = s.eq) ∧
      (s.cfg.relayMayDropEarly = false → (t.latch.taken = true ↔ s.eq.length < s.cfg.queueCap)) ∧
      OnlyChanges (if s.cfg.relayMayDropEarly then [.eq, .latch, .draws] else [.eq, .latch]) s t

/-- ERPOP in Ready completes: from an empty queue it answers 0x0000 and removes nothing, else it answers the oldest
record's word and removes that record; nothing else changes. -/
def Obligations.ErpopTakesOldest : Prop :=
  ∀ s : State, s.phase = .ready →
    (s.eq = [] → ∃ t, exec .erpop s = .next t ∧ t.answers .none (some 0x0000#16) ∧ OnlyChanges [.answer] s t) ∧
    (∀ (e : Event) (rest : List Event), s.eq = e :: rest →
      ∃ t, exec .erpop s = .next t ∧ t.answers .none (some e.word) ∧ t.eq = rest ∧ OnlyChanges [.eq, .answer] s t)

/-- The queue changes in four ways only, whatever a step does: not at all, one record appended at the tail while there
is room, the head removed, or emptied by INIT or by power-on.  That the queue is empty after power-on is
the model's choice (log entries 3 and 17): the spec gives it no value there. -/
def Obligations.RelayIsBoundedFifo : Prop :=
  ∀ s t : State, step s = .next t →
    t.eq = s.eq ∨ (∃ e, t.eq = s.eq ++ [e] ∧ s.eq.length < s.cfg.queueCap) ∨ (∃ e, s.eq = e :: t.eq) ∨
    (t.eq = [] ∧ ((∃ rest, s.inbox = .powerOn :: rest) ∨
      ∃ (pol : Level) (w : CmdWord) (rest : List Slot), s.inbox = .port w :: rest ∧ decode w = .ok (.init pol)))

/-! ### Lifecycle -/

/-- ConfigValid holds exactly when the four checks hold; the check reports the lowest code among those that fail, 0 when
there is none (44_lifecycle.md section 1, 60_exceptions.md section 3).  That the pins checked are those of existing keys
is the model's choice (log entry 24). -/
def Obligations.ConfigCheckReportsLowestCode : Prop :=
  ∀ P : Config,
    let order := 0 < P.transient ∧ P.transient < P.steady
    let dims := (1 ≤ P.rows ∧ P.rows ≤ 16) ∧ (1 ≤ P.cols ∧ P.cols ≤ 16)
    let width := P.steady ≤ 2 ^ (P.cw - 1) - 1
    let pins := ∀ r c : Idx, r.val < P.rows → c.val < P.cols →
      P.pin r c < 16 ∧ ∀ c' : Idx, c'.val < P.cols → c' ≠ c → P.pin r c ≠ P.pin r c'
    (¬ order → configError P = .configThresholdOrder) ∧
    (order ∧ ¬ dims → configError P = .configDimRange) ∧
    (order ∧ dims ∧ ¬ width → configError P = .configCounterWidth) ∧
    (order ∧ dims ∧ width ∧ ¬ pins → configError P = .configPinMap) ∧
    (order ∧ dims ∧ width ∧ pins → configError P = .none) ∧
    (configValid P = true ↔ order ∧ dims ∧ width ∧ pins)

/-- INIT with a valid configuration, not refused, completes: every key is in the saturated steady state of pol, every
published bit is pol, the relay is empty at the first INIT or with INIT_CLEARS_RELAY and else kept, the block is Ready
with fcode 0, the answer is 0, and everything else is kept: the snapshot words, the cursor, the configuration and, when no
key step is in progress, the model's own fields (log entries 6 and 9) too. -/
def Obligations.InitEstablishesPolarity : Prop :=
  ∀ (s : State) (pol : Level), s.phase ≠ .failed → s.busy = false → configValid s.cfg = true →
    ∃ t, exec (.init pol) s = .next t ∧ t.phase = .ready ∧ t.fcode = 0#4 ∧ t.busy = false ∧
      t.answers .none (some 0#16) ∧
      (∀ r c : Idx, inMatrix s.cfg r c = true →
        (t.key r c).fsm = (if pol then .steadyHi else .steadyLo) ∧
        (t.key r c).cnt = (if pol then (s.cfg.steady : Int) else -(s.cfg.steady : Int)) ∧ t.ssBit r c = pol) ∧
      (s.cfg.initClearsRelay = true ∨ s.phase = .uninit → t.eq = []) ∧
      (s.cfg.initClearsRelay = false → s.phase = .ready → t.eq = s.eq) ∧
      OnlyChanges [.keys, .ss, .eq, .phase, .fcode, .answer, .stage, .cutKey] s t ∧
      (s.stage = .keyStart → s.cutKey = none → OnlyChanges [.keys, .ss, .eq, .phase, .fcode, .answer] s t)

/-- INIT with an invalid configuration, not refused, takes the configuration fault: phase <- Failed, fcode <- the lowest
failing code, which is also its answer, and no other state is written. -/
def Obligations.InitReportsConfigurationFault : Prop :=
  ∀ (s : State) (pol : Level), s.phase ≠ .failed → s.busy = false → configValid s.cfg = false →
    ∃ t, exec (.init pol) s = .next t ∧ t.phase = .failed ∧ t.fcode = (configError s.cfg).num ∧
      1 ≤ t.fcode.toNat ∧ t.fcode.toNat ≤ 4 ∧ t.answers .none (some (t.fcode.setWidth 16)) ∧
      OnlyChanges [.phase, .fcode, .answer] s t

/-- STOP completes in every state.  With STOP_ABORTS_DISPATCH clear, or no dispatch in progress, it changes nothing but
the answer; with it set and a dispatch in progress busy is 0 at once, and the Debouncers, the StateStore, the snapshot
words, the queue, phase and fcode keep their values.  The key step in progress, if any, stays the engine's to end, which
is the model's choice (log entry 9). -/
def Obligations.StopKeepsState : Prop :=
  ∀ s : State, ∃ t, exec .stop s = .next t ∧ t.answers .none none ∧
    OnlyChanges [.busy, .cutKey, .answer] s t ∧
    (s.cfg.stopAbortsDispatch = false ∨ s.busy = false → OnlyChanges [.answer] s t) ∧
    (s.cfg.stopAbortsDispatch = true → s.busy = true → t.busy = false ∧
      (s.stage = .keyStart → t.cutKey = none) ∧ (s.stage ≠ .keyStart → t.cutKey = s.dueKey))

/-- Scanning goes on after STOP without INIT: in a block that is not dispatching, NOTIFY after STOP gives what NOTIFY
gives without it. -/
def Obligations.ScanResumesAfterStop : Prop :=
  ∀ (s t : State) (h : Half), s.phase = .ready → s.busy = false → exec .stop s = .next t →
    ∃ u, exec (.notify h) t = .next u ∧ exec (.notify h) s = .next u

/-- R155: NOTIFY, SSRD, SSRDROW and ERPOP are served only in Ready; INIT only in Uninit and in Ready with busy = 0;
otherwise the operation is refused with status 9 and no state changed; SBWR and STOP are served in every phase. -/
def Obligations.IllegalPhaseRefused : Prop :=
  (∀ (s : State) (h : Half) (r c : Idx) (i : Instr),
    i = .notify h ∨ i = .ssrd r c ∨ i = .ssrdrow r ∨ i = .erpop →
    (s.phase ≠ .ready → ∃ t, exec i s = .next t ∧ Refused .illegalPhase s t) ∧
    (s.phase = .ready → ∀ t, exec i s = .next t → ¬ t.answers .illegalPhase none)) ∧
  (∀ (s : State) (pol : Level),
    (s.phase = .failed ∨ s.busy = true → ∃ t, exec (.init pol) s = .next t ∧ Refused .illegalPhase s t) ∧
    (s.phase ≠ .failed ∧ s.busy = false → ∃ t, exec (.init pol) s = .next t ∧ ¬ t.answers .illegalPhase none)) ∧
  (∀ (s t : State) (h : Half) (r : Idx) (w : Word) (i : Instr), i = .sbwr h r w ∨ i = .stop →
    exec i s = .next t → ¬ t.answers .illegalPhase none)

/-- R154: a port operation whose ROW is not less than ROWS, or whose COL is used and not less than COLS, is refused with
status 7 and no state changed (where the phase check, which comes first, does not refuse it). -/
def Obligations.BadIndexRefused : Prop :=
  ∀ (s : State) (i : Instr), i.opcode.isPort = true → i.wellFormed s.cfg = false →
    (s.phase = .ready ∨ i.opcode = .sbwr) →
    ∃ t, exec i s = .next t ∧ t.answer = some { status := 7#4, data := none } ∧ OnlyChanges [.answer] s t

/-- A micro operation whose indices name no storage changes no state and is answered BadIndex. -/
def Obligations.MicroBadIndexRefused : Prop :=
  ∀ (s : State) (i : Instr), i.opcode.isPort = false → i.wellFormed s.cfg = false →
    ∃ t, exec i s = .next t ∧ Refused .badIndex s t

/-! ### Power-on, invariants and whole-machine rules -/

/-- Power-on, at reset and as a move: phase = Uninit, fcode = 0, busy = 0, whatever the configuration. -/
def Obligations.PowerOnState : Prop :=
  (State.reset.phase = .uninit ∧ State.reset.fcode = 0#4 ∧ State.reset.busy = false) ∧
  (∀ P : Config, (State.powerOn P).phase = .uninit ∧ (State.powerOn P).fcode = 0#4 ∧ (State.powerOn P).busy = false ∧
    (State.powerOn P).cfg = P ∧ ∀ (h : Half) (r : Idx), (State.powerOn P).snapWord h r = none) ∧
  (∀ (s : State) (rest : List Slot), s.inbox = .powerOn :: rest →
    ∃ t, step s = .next t ∧ t.phase = .uninit ∧ t.fcode = 0#4 ∧ t.busy = false ∧ t.cfg = s.cfg ∧ t.inbox = rest ∧
      ∀ (h : Half) (r : Idx), t.snapWord h r = none)

/-- The invariant of the block holds after power-on for every configuration, in particular at reset. -/
def Obligations.InvariantAtReset : Prop := Inv State.reset ∧ ∀ P : Config, Inv (State.powerOn P)

/-- Every step keeps the invariant of the block: the canonical snapshot memory, the bounded queue, the agreement of the
lifecycle registers, the reachable set of every Debouncer and the publication invariant. -/
def Obligations.StepKeepsInvariant : Prop := ∀ s t : State, Inv s → step s = .next t → Inv t

/-- R111: whenever no key step is in progress every published bit is the output of its Debouncer; INIT establishes it,
every step of the block keeps it, and every SSWR the engine does flips its bit: as a micro operation, on whichever of the
engine's moves, and inside a whole KEYSTEP. -/
def Obligations.PublicationInvariant : Prop :=
  (∀ s : State, Inv s → s.phase = .ready → s.stage = .keyStart →
    ∀ r c : Idx, inMatrix s.cfg r c = true → Published s r c) ∧
  (∀ (s t : State) (pol : Level), s.phase ≠ .failed → s.busy = false → configValid s.cfg = true →
    exec (.init pol) s = .next t → ∀ r c : Idx, inMatrix s.cfg r c = true → Published t r c) ∧
  (∀ s t : State, Inv s → step s = .next t → t.phase = .ready → t.stage = .keyStart →
    ∀ r c : Idx, inMatrix t.cfg r c = true → Published t r c) ∧
  (∀ (s t : State) (rest : List Slot) (r c : Idx), Inv s → s.active = true → s.stage = .publish →
    s.dueKey = some (r, c) → s.inbox = [] ∨ s.inbox = .engineMicro :: rest ∨ s.inbox = .engineKey :: rest →
    step s = .next t → t.ssBit r c = !s.ssBit r c) ∧
  (∀ (s t : State) (rest : List Slot) (r c : Idx), Inv s → s.active = true → s.stage = .keyStart →
    s.dueKey = some (r, c) → s.inbox = [] ∨ s.inbox = .engineKey :: rest → step s = .next t →
    t.latch.changed = true → t.ssBit r c = !s.ssBit r c)

/-- R55: inside one key step the StateStore bit is written before the event is pushed: whenever a step of the block
appends an event, the bit of its key is already the event's output. -/
def Obligations.StoreBeforeEvent : Prop :=
  ∀ (s t : State) (e : Event), Inv s → step s = .next t → t.eq = s.eq ++ [e] → t.ssBit e.row e.col = e.output

/-- No step writes the configuration. -/
def Obligations.ConfigurationIsConstant : Prop := ∀ s t : State, step s = .next t → t.cfg = s.cfg

/-- Failed is left only by power-on reset, and until then the Debouncers, the StateStore, the queue and fcode stand as
they were at the fault. -/
def Obligations.FailedUntilPowerOn : Prop :=
  ∀ s t : State, Inv s → s.phase = .failed → (∀ rest, s.inbox ≠ .powerOn :: rest) → step s = .next t →
    t.phase = .failed ∧ t.fcode = s.fcode ∧ t.keys = s.keys ∧ t.ss = s.ss ∧ t.eq = s.eq ∧ t.busy = false

/-- From a state of the block in Ready no step leads to Failed: an invariant violation is unreachable, and a
configuration that was valid stays valid. -/
def Obligations.InvariantViolationUnreachable : Prop :=
  ∀ s t : State, Inv s → s.phase = .ready → step s = .next t → t.phase ≠ .failed

/-- The only stop of the machine is Overrun, raised exactly when a port takes a NOTIFY in Ready during a dispatch or an
SBWR to an existing row of the half under dispatch; no step is refused a meaning. -/
def Obligations.OverrunIsTheOnlyStop : Prop :=
  (∀ (s : State) (q : Refusal), step s ≠ .refused q) ∧
  (∀ (s : State) (f : Fault), step s = .fault f ↔
    s.busy = true ∧ ∃ (w : CmdWord) (rest : List Slot), s.inbox = .port w :: rest ∧
      ((∃ h, decode w = .ok (.notify h) ∧ s.phase = .ready ∧ f = .overrunNotify h) ∨
       (∃ h r v, decode w = .ok (.sbwr h r v) ∧ inRow s.cfg r = true ∧ s.cur.h = h ∧ f = .overrunWrite h r)))

/-- The access rights by agent: what the operations of each agent may change. -/
def Obligations.AccessRightsByAgent : Prop :=
  ∀ (s t : State) (i : Instr), exec i s = .next t →
    (i.opcode.issuer = .reader → OnlyChanges [.answer] s t) ∧
    (i.opcode.issuer = .consumer → OnlyChanges [.eq, .answer] s t) ∧
    (i.opcode.issuer = .rowDriver → OnlyChanges [.snap, .busy, .cur, .stage, .answer] s t) ∧
    (i.opcode.issuer = .host → t.snap = s.snap ∧ t.cur = s.cur ∧ t.cfg = s.cfg) ∧
    (i.opcode.issuer = .engine → t.snap = s.snap ∧ t.cfg = s.cfg ∧ t.cur = s.cur) ∧
    (i.opcode ≠ .sbwr → t.snap = s.snap) ∧
    (i.opcode.isPort = true → i.opcode ≠ .init → t.keys = s.keys ∧ t.ss = s.ss)

/-- A quiescent block does nothing by itself and every published bit is the output of its Debouncer. -/
def Obligations.QuiescentBlockIsIdle : Prop :=
  ∀ s : State, Inv s → Quiescent s →
    step s = .next s ∧ ∀ r c : Idx, inMatrix s.cfg r c = true → s.ssBit r c = (s.key r c).fsm.out

/-- The engine is never blocked: whenever a dispatch is in progress, or a key step that STOP cut off (log entry 9), and no
other agent moves, a step completes. -/
def Obligations.EngineAlwaysEnabled : Prop :=
  ∀ (s : State) (rest : List Slot), s.active = true →
    (s.inbox = [] ∨ s.inbox = .engineMicro :: rest ∨ s.inbox = .engineKey :: rest) → ∃ t, step s = .next t

/-! ### Timing and the environment -/

/-- The conversion of times to field counts rounds up: ceil_div is the least count of periods that covers the time, and
the field period is T_ROW × ROWS. -/
def Obligations.TimesRoundUpToFields : Prop :=
  (∀ a b : Nat, 0 < a → 0 < b → a ≤ ceilDiv a b * b ∧ (ceilDiv a b - 1) * b < a ∧ 0 < ceilDiv a b) ∧
  (∀ (t : Times) (P : Config), (Config.withTimes P t).steady = (t.tSteady + t.tRow * P.rows - 1) / (t.tRow * P.rows) ∧
    (Config.withTimes P t).transient = (t.tTransient + t.tRow * P.rows - 1) / (t.tRow * P.rows)) ∧
  ceilDiv 20 4 = 5 ∧ ceilDiv 21 4 = 6 ∧ ceilDiv 5 4 = 2 ∧ ceilDiv 4 4 = 1 ∧ ceilDiv 1 4 = 1

/-- The Row Driver's protocol captures one field after another: the operations of the ROWS periods of field k are the
pseudo-operation FIELD of the half k mod 2. -/
def Obligations.RowDriverCapturesFields : Prop :=
  ∀ (P : Config) (k : Nat) (words : Idx → Word), 1 ≤ P.rows → P.rows ≤ 16 →
    ((List.range P.rows).flatMap fun j => driverOps P (k * P.rows + j) (words (Fin.ofNat 16 j))) =
      fieldOps P (if k % 2 = 0 then 0 else 1) words

/-! ### A dispatch cut short -/

/-- A dispatch that STOP cuts short inside a key step ends with that key step (44_lifecycle.md section 3): busy is 0 from
the STOP on, and within four moves of the engine the key of that key step is done and published, every other key and
published bit is as it was, and no further key step is begun.  That the engine ends the key step in progress is the model's
choice (log entry 9). -/
def Obligations.StopEndsWithTheKeyStep : Prop :=
  ∀ (s t : State) (r c : Idx), Inv s → s.cfg.stopAbortsDispatch = true → s.busy = true → s.stage ≠ .keyStart →
    s.dueKey = some (r, c) → s.inbox = [] → exec .stop s = .next t →
    t.busy = false ∧ ∃ (n : Nat) (u : State), n ≤ 4 ∧ runSteps n t = .next u ∧ step u = .next u ∧
      u.busy = false ∧ u.stage = .keyStart ∧ u.cutKey = none ∧ u.phase = .ready ∧ u.cur = s.cur ∧ u.snap = s.snap ∧
      OtherKeysSame r c s u ∧ OtherBitsSame r c s u ∧
      (∀ r' c' : Idx, inMatrix s.cfg r' c' = true → Published u r' c')
end

