-- ==== Sys2Proof/Laws/Debouncer.lean ====
section
/-! SUPPORT. One debounce timestep and sequences of them: the step of the counter by cases, the reachable set under one
timestep, and the outcome of a sequence taken apart at its ends. -/

namespace Sys2Proof.Machine

/-- A timestep is the transition on the stepped counter. -/
theorem Debouncer.update_mk (S T : Int) (f : Fsm) (k : Int) (x : Level) :
    Debouncer.update S T { fsm := f, cnt := k } x = transition S T f (stepCounter S k x) := rfl

/-- The stepped counter, by cases on the sample: one more unless saturated, one less unless saturated. -/
theorem stepCounter_cases {S k : Int} (x : Level) (h1 : -S ≤ k) (h2 : k ≤ S) :
    (x = true ∧ k < S ∧ stepCounter S k x = k + 1) ∨ (x = true ∧ k = S ∧ stepCounter S k x = S) ∨
    (x = false ∧ -S < k ∧ stepCounter S k x = k - 1) ∨ (x = false ∧ k = -S ∧ stepCounter S k x = -S) := by
  cases x
  · rcases Int.lt_or_eq_of_le h1 with h | h
    · exact .inr (.inr (.inl ⟨rfl, h, by simp [stepCounter, satDec]; omega⟩))
    · exact .inr (.inr (.inr ⟨rfl, h.symm, by simp [stepCounter, satDec]; omega⟩))
  · rcases Int.lt_or_eq_of_le h2 with h | h
    · exact .inl ⟨rfl, h, by simp [stepCounter, satInc]; omega⟩
    · exact .inr (.inl ⟨rfl, h, by simp [stepCounter, satInc]; omega⟩)

/-- A reachable Debouncer has its counter between the bounds. -/
theorem Reach.bounds {S T : Nat} {d : Debouncer} (hT : T < S) (h : Reach S T d) : -(S : Int) ≤ d.cnt ∧ d.cnt ≤ S := by
  obtain ⟨f, k⟩ := d
  cases f <;> simp only [Reach] at h <;> simp only <;> omega

/-- The reachable set is closed under one timestep. -/
theorem Reach.update {S T : Nat} {d : Debouncer} (hT0 : 0 < T) (hT : T < S) (x : Level) (h : Reach S T d) :
    Reach S T (d.update S T x).1 := by
  have hb := h.bounds hT
  obtain ⟨f, k⟩ := d
  rw [Debouncer.update_mk]
  have hk := stepCounter_cases (S := S) (k := k) x hb.1 hb.2
  revert hk
  generalize stepCounter S k x = k1
  intro hk
  cases f <;> simp only [Reach] at h <;> simp only [transition] <;> (repeat' split) <;> simp only [Reach] <;> omega

/-! ### Sequences of samples -/

@[simp] theorem Debouncer.feed_nil (S T : Int) (d : Debouncer) : d.feed S T [] = d := rfl

@[simp] theorem Debouncer.feed_cons (S T : Int) (d : Debouncer) (x : Level) (xs : List Level) :
    d.feed S T (x :: xs) = (d.update S T x).1.feed S T xs := rfl

theorem Debouncer.feed_append (S T : Int) (d : Debouncer) (xs ys : List Level) :
    d.feed S T (xs ++ ys) = (d.feed S T xs).feed S T ys := by
  simp [Debouncer.feed, List.foldl_append]

@[simp] theorem Debouncer.changes_nil (S T : Int) (d : Debouncer) : d.changes S T [] = [] := rfl

@[simp] theorem Debouncer.changes_cons (S T : Int) (d : Debouncer) (x : Level) (xs : List Level) :
    d.changes S T (x :: xs) = (d.update S T x).2 :: (d.update S T x).1.changes S T xs := rfl

theorem Debouncer.changes_append (S T : Int) (d : Debouncer) (xs ys : List Level) :
    d.changes S T (xs ++ ys) = d.changes S T xs ++ (d.feed S T xs).changes S T ys := by
  induction xs generalizing d with
  | nil => rfl
  | cons x xs ih => simp [ih]

@[simp] theorem votes_nil : votes [] = 0 := rfl

theorem votes_append (xs ys : List Level) : votes (xs ++ ys) = votes xs + votes ys := by simp [votes]

end Sys2Proof.Machine
end

