-- ==== Sys2Proof/Laws/Memory.lean ====
section
/-! SUPPORT. The SnapshotBuffer as a memory: a write keeps the canonical form, a read after a write to the same cell
gives the word written, and a write leaves every other cell alone. -/

namespace Sys2Proof.Machine

theorem snapCell_lt (h : Half) (r : Idx) : snapCell h r < snapCells := by
  unfold snapCell snapCells; omega

theorem snapCell_inj {h h' : Half} {r r' : Idx} (e : snapCell h r = snapCell h' r') : (h, r) = (h', r') := by
  unfold snapCell at e
  have h1 : h = h' := by ext; omega
  have h2 : r = r' := by ext; omega
  rw [h1, h2]

theorem Memory.read_write_same (m : Memory) (k : Nat) (w : Word) : Memory.read (Memory.write m k w) k = some w := by
  induction m with
  | nil => simp [Memory.write, Memory.read]
  | cons e rest ih =>
    obtain ⟨a, v⟩ := e
    simp only [Memory.write]
    split
    · simp [Memory.read]
    · split
      · simp [Memory.read]
      · rename_i h1 h2
        simp [Memory.read, Ne.symm h2, ih]

/-- A cell below every listed cell has not been written. -/
theorem Memory.read_of_lt {m : Memory} {k : Nat} (h : ∀ e ∈ m, k < e.1) : Memory.read m k = none := by
  induction m with
  | nil => rfl
  | cons e rest ih =>
    obtain ⟨a, v⟩ := e
    have h1 : k < a := h (a, v) (by simp)
    simp only [Memory.read, if_neg (Nat.ne_of_gt h1)]
    exact ih fun e he => h e (by simp [he])

theorem Memory.read_write_other {m : Memory} {k j : Nat} (w : Word) (hm : Memory.wf m) (hj : j ≠ k) :
    Memory.read (Memory.write m k w) j = Memory.read m j := by
  induction m with
  | nil => simp [Memory.write, Memory.read, Ne.symm hj]
  | cons e rest ih =>
    obtain ⟨a, v⟩ := e
    have hr : Memory.wf rest := ⟨hm.1.of_cons, fun e he => hm.2 e (by simp [he])⟩
    simp only [Memory.write]
    split
    · simp [Memory.read, Ne.symm hj]
    · split
      · rename_i _ h2
        subst h2
        simp [Memory.read, Ne.symm hj]
      · simp only [Memory.read]
        rw [ih hr]

/-- The cells of a memory after a write are the old ones and the one written. -/
theorem Memory.mem_write {m : Memory} {k : Nat} {w : Word} {e : Nat × Word} (he : e ∈ Memory.write m k w) :
    e ∈ m ∨ e = (k, w) := by
  induction m with
  | nil => simpa [Memory.write] using he
  | cons x rest ih =>
    obtain ⟨a, v⟩ := x
    simp only [Memory.write] at he
    split at he
    · rcases List.mem_cons.1 he with h | h
      · exact .inr h
      · exact .inl h
    · split at he
      · rcases List.mem_cons.1 he with h | h
        · exact .inr h
        · exact .inl (by simp [h])
      · rcases List.mem_cons.1 he with h | h
        · exact .inl (by simp [h])
        · rcases ih h with h | h
          · exact .inl (by simp [h])
          · exact .inr h

/-- MemWrite keeps the canonical form. -/
theorem Memory.wf_write {m : Memory} {k : Nat} (w : Word) (hm : Memory.wf m) (hk : k < snapCells) :
    Memory.wf (Memory.write m k w) := by
  refine ⟨?_, fun e he => ?_⟩
  · have hp := hm.1
    clear hm
    induction m with
    | nil => simp [Memory.write]
    | cons x rest ih =>
      obtain ⟨a, v⟩ := x
      rw [List.pairwise_cons] at hp
      simp only [Memory.write]
      split
      · rename_i h1
        refine List.pairwise_cons.2 ⟨fun e he => ?_, List.pairwise_cons.2 hp⟩
        rcases List.mem_cons.1 he with h | h
        · simpa [h] using h1
        · exact Nat.lt_trans h1 (hp.1 e h)
      · split
        · rename_i _ h2
          subst h2
          exact List.pairwise_cons.2 hp
        · rename_i h1 h2
          refine List.pairwise_cons.2 ⟨fun e he => ?_, ih hp.2⟩
          rcases Memory.mem_write he with h | h
          · exact hp.1 e h
          · subst h
            simp only
            omega
  · rcases Memory.mem_write he with h | h
    · exact hm.2 e h
    · subst h
      exact hk

theorem powerOn_memory_wf (P : Config) : Memory.wf (State.powerOn P).snap := by
  simp [Memory.wf, State.powerOn]

theorem reset_memory_wf : Memory.wf State.reset.snap := powerOn_memory_wf _

end Sys2Proof.Machine
end

