-- ==== Sys2Proof/Laws/State.lean ====
section
/-! SUPPORT. One lemma per field per update of State, each true by unfolding the update once. -/

namespace Sys2Proof.Machine.State

/-! ### `withKeys` -/

@[simp] theorem withKeys_cfg (s : State) (v) : (s.withKeys v).cfg = s.cfg := rfl
@[simp] theorem withKeys_keys (s : State) (v) : (s.withKeys v).keys = v := rfl
@[simp] theorem withKeys_ss (s : State) (v) : (s.withKeys v).ss = s.ss := rfl
@[simp] theorem withKeys_snap (s : State) (v) : (s.withKeys v).snap = s.snap := rfl
@[simp] theorem withKeys_eq (s : State) (v) : (s.withKeys v).eq = s.eq := rfl
@[simp] theorem withKeys_busy (s : State) (v) : (s.withKeys v).busy = s.busy := rfl
@[simp] theorem withKeys_cur (s : State) (v) : (s.withKeys v).cur = s.cur := rfl
@[simp] theorem withKeys_phase (s : State) (v) : (s.withKeys v).phase = s.phase := rfl
@[simp] theorem withKeys_fcode (s : State) (v) : (s.withKeys v).fcode = s.fcode := rfl
@[simp] theorem withKeys_faultKey (s : State) (v) : (s.withKeys v).faultKey = s.faultKey := rfl
@[simp] theorem withKeys_answer (s : State) (v) : (s.withKeys v).answer = s.answer := rfl
@[simp] theorem withKeys_stage (s : State) (v) : (s.withKeys v).stage = s.stage := rfl
@[simp] theorem withKeys_latch (s : State) (v) : (s.withKeys v).latch = s.latch := rfl
@[simp] theorem withKeys_cutKey (s : State) (v) : (s.withKeys v).cutKey = s.cutKey := rfl
@[simp] theorem withKeys_inbox (s : State) (v) : (s.withKeys v).inbox = s.inbox := rfl
@[simp] theorem withKeys_draws (s : State) (v) : (s.withKeys v).draws = s.draws := rfl

/-! ### `withSs` -/

@[simp] theorem withSs_cfg (s : State) (v) : (s.withSs v).cfg = s.cfg := rfl
@[simp] theorem withSs_keys (s : State) (v) : (s.withSs v).keys = s.keys := rfl
@[simp] theorem withSs_ss (s : State) (v) : (s.withSs v).ss = v := rfl
@[simp] theorem withSs_snap (s : State) (v) : (s.withSs v).snap = s.snap := rfl
@[simp] theorem withSs_eq (s : State) (v) : (s.withSs v).eq = s.eq := rfl
@[simp] theorem withSs_busy (s : State) (v) : (s.withSs v).busy = s.busy := rfl
@[simp] theorem withSs_cur (s : State) (v) : (s.withSs v).cur = s.cur := rfl
@[simp] theorem withSs_phase (s : State) (v) : (s.withSs v).phase = s.phase := rfl
@[simp] theorem withSs_fcode (s : State) (v) : (s.withSs v).fcode = s.fcode := rfl
@[simp] theorem withSs_faultKey (s : State) (v) : (s.withSs v).faultKey = s.faultKey := rfl
@[simp] theorem withSs_answer (s : State) (v) : (s.withSs v).answer = s.answer := rfl
@[simp] theorem withSs_stage (s : State) (v) : (s.withSs v).stage = s.stage := rfl
@[simp] theorem withSs_latch (s : State) (v) : (s.withSs v).latch = s.latch := rfl
@[simp] theorem withSs_cutKey (s : State) (v) : (s.withSs v).cutKey = s.cutKey := rfl
@[simp] theorem withSs_inbox (s : State) (v) : (s.withSs v).inbox = s.inbox := rfl
@[simp] theorem withSs_draws (s : State) (v) : (s.withSs v).draws = s.draws := rfl

/-! ### `withSnap` -/

@[simp] theorem withSnap_cfg (s : State) (v) : (s.withSnap v).cfg = s.cfg := rfl
@[simp] theorem withSnap_keys (s : State) (v) : (s.withSnap v).keys = s.keys := rfl
@[simp] theorem withSnap_ss (s : State) (v) : (s.withSnap v).ss = s.ss := rfl
@[simp] theorem withSnap_snap (s : State) (v) : (s.withSnap v).snap = v := rfl
@[simp] theorem withSnap_eq (s : State) (v) : (s.withSnap v).eq = s.eq := rfl
@[simp] theorem withSnap_busy (s : State) (v) : (s.withSnap v).busy = s.busy := rfl
@[simp] theorem withSnap_cur (s : State) (v) : (s.withSnap v).cur = s.cur := rfl
@[simp] theorem withSnap_phase (s : State) (v) : (s.withSnap v).phase = s.phase := rfl
@[simp] theorem withSnap_fcode (s : State) (v) : (s.withSnap v).fcode = s.fcode := rfl
@[simp] theorem withSnap_faultKey (s : State) (v) : (s.withSnap v).faultKey = s.faultKey := rfl
@[simp] theorem withSnap_answer (s : State) (v) : (s.withSnap v).answer = s.answer := rfl
@[simp] theorem withSnap_stage (s : State) (v) : (s.withSnap v).stage = s.stage := rfl
@[simp] theorem withSnap_latch (s : State) (v) : (s.withSnap v).latch = s.latch := rfl
@[simp] theorem withSnap_cutKey (s : State) (v) : (s.withSnap v).cutKey = s.cutKey := rfl
@[simp] theorem withSnap_inbox (s : State) (v) : (s.withSnap v).inbox = s.inbox := rfl
@[simp] theorem withSnap_draws (s : State) (v) : (s.withSnap v).draws = s.draws := rfl

/-! ### `withEq` -/

@[simp] theorem withEq_cfg (s : State) (v) : (s.withEq v).cfg = s.cfg := rfl
@[simp] theorem withEq_keys (s : State) (v) : (s.withEq v).keys = s.keys := rfl
@[simp] theorem withEq_ss (s : State) (v) : (s.withEq v).ss = s.ss := rfl
@[simp] theorem withEq_snap (s : State) (v) : (s.withEq v).snap = s.snap := rfl
@[simp] theorem withEq_eq (s : State) (v) : (s.withEq v).eq = v := rfl
@[simp] theorem withEq_busy (s : State) (v) : (s.withEq v).busy = s.busy := rfl
@[simp] theorem withEq_cur (s : State) (v) : (s.withEq v).cur = s.cur := rfl
@[simp] theorem withEq_phase (s : State) (v) : (s.withEq v).phase = s.phase := rfl
@[simp] theorem withEq_fcode (s : State) (v) : (s.withEq v).fcode = s.fcode := rfl
@[simp] theorem withEq_faultKey (s : State) (v) : (s.withEq v).faultKey = s.faultKey := rfl
@[simp] theorem withEq_answer (s : State) (v) : (s.withEq v).answer = s.answer := rfl
@[simp] theorem withEq_stage (s : State) (v) : (s.withEq v).stage = s.stage := rfl
@[simp] theorem withEq_latch (s : State) (v) : (s.withEq v).latch = s.latch := rfl
@[simp] theorem withEq_cutKey (s : State) (v) : (s.withEq v).cutKey = s.cutKey := rfl
@[simp] theorem withEq_inbox (s : State) (v) : (s.withEq v).inbox = s.inbox := rfl
@[simp] theorem withEq_draws (s : State) (v) : (s.withEq v).draws = s.draws := rfl

/-! ### `withBusy` -/

@[simp] theorem withBusy_cfg (s : State) (v) : (s.withBusy v).cfg = s.cfg := rfl
@[simp] theorem withBusy_keys (s : State) (v) : (s.withBusy v).keys = s.keys := rfl
@[simp] theorem withBusy_ss (s : State) (v) : (s.withBusy v).ss = s.ss := rfl
@[simp] theorem withBusy_snap (s : State) (v) : (s.withBusy v).snap = s.snap := rfl
@[simp] theorem withBusy_eq (s : State) (v) : (s.withBusy v).eq = s.eq := rfl
@[simp] theorem withBusy_busy (s : State) (v) : (s.withBusy v).busy = v := rfl
@[simp] theorem withBusy_cur (s : State) (v) : (s.withBusy v).cur = s.cur := rfl
@[simp] theorem withBusy_phase (s : State) (v) : (s.withBusy v).phase = s.phase := rfl
@[simp] theorem withBusy_fcode (s : State) (v) : (s.withBusy v).fcode = s.fcode := rfl
@[simp] theorem withBusy_faultKey (s : State) (v) : (s.withBusy v).faultKey = s.faultKey := rfl
@[simp] theorem withBusy_answer (s : State) (v) : (s.withBusy v).answer = s.answer := rfl
@[simp] theorem withBusy_stage (s : State) (v) : (s.withBusy v).stage = s.stage := rfl
@[simp] theorem withBusy_latch (s : State) (v) : (s.withBusy v).latch = s.latch := rfl
@[simp] theorem withBusy_cutKey (s : State) (v) : (s.withBusy v).cutKey = s.cutKey := rfl
@[simp] theorem withBusy_inbox (s : State) (v) : (s.withBusy v).inbox = s.inbox := rfl
@[simp] theorem withBusy_draws (s : State) (v) : (s.withBusy v).draws = s.draws := rfl

/-! ### `withCur` -/

@[simp] theorem withCur_cfg (s : State) (v) : (s.withCur v).cfg = s.cfg := rfl
@[simp] theorem withCur_keys (s : State) (v) : (s.withCur v).keys = s.keys := rfl
@[simp] theorem withCur_ss (s : State) (v) : (s.withCur v).ss = s.ss := rfl
@[simp] theorem withCur_snap (s : State) (v) : (s.withCur v).snap = s.snap := rfl
@[simp] theorem withCur_eq (s : State) (v) : (s.withCur v).eq = s.eq := rfl
@[simp] theorem withCur_busy (s : State) (v) : (s.withCur v).busy = s.busy := rfl
@[simp] theorem withCur_cur (s : State) (v) : (s.withCur v).cur = v := rfl
@[simp] theorem withCur_phase (s : State) (v) : (s.withCur v).phase = s.phase := rfl
@[simp] theorem withCur_fcode (s : State) (v) : (s.withCur v).fcode = s.fcode := rfl
@[simp] theorem withCur_faultKey (s : State) (v) : (s.withCur v).faultKey = s.faultKey := rfl
@[simp] theorem withCur_answer (s : State) (v) : (s.withCur v).answer = s.answer := rfl
@[simp] theorem withCur_stage (s : State) (v) : (s.withCur v).stage = s.stage := rfl
@[simp] theorem withCur_latch (s : State) (v) : (s.withCur v).latch = s.latch := rfl
@[simp] theorem withCur_cutKey (s : State) (v) : (s.withCur v).cutKey = s.cutKey := rfl
@[simp] theorem withCur_inbox (s : State) (v) : (s.withCur v).inbox = s.inbox := rfl
@[simp] theorem withCur_draws (s : State) (v) : (s.withCur v).draws = s.draws := rfl

/-! ### `withPhase` -/

@[simp] theorem withPhase_cfg (s : State) (v) : (s.withPhase v).cfg = s.cfg := rfl
@[simp] theorem withPhase_keys (s : State) (v) : (s.withPhase v).keys = s.keys := rfl
@[simp] theorem withPhase_ss (s : State) (v) : (s.withPhase v).ss = s.ss := rfl
@[simp] theorem withPhase_snap (s : State) (v) : (s.withPhase v).snap = s.snap := rfl
@[simp] theorem withPhase_eq (s : State) (v) : (s.withPhase v).eq = s.eq := rfl
@[simp] theorem withPhase_busy (s : State) (v) : (s.withPhase v).busy = s.busy := rfl
@[simp] theorem withPhase_cur (s : State) (v) : (s.withPhase v).cur = s.cur := rfl
@[simp] theorem withPhase_phase (s : State) (v) : (s.withPhase v).phase = v := rfl
@[simp] theorem withPhase_fcode (s : State) (v) : (s.withPhase v).fcode = s.fcode := rfl
@[simp] theorem withPhase_faultKey (s : State) (v) : (s.withPhase v).faultKey = s.faultKey := rfl
@[simp] theorem withPhase_answer (s : State) (v) : (s.withPhase v).answer = s.answer := rfl
@[simp] theorem withPhase_stage (s : State) (v) : (s.withPhase v).stage = s.stage := rfl
@[simp] theorem withPhase_latch (s : State) (v) : (s.withPhase v).latch = s.latch := rfl
@[simp] theorem withPhase_cutKey (s : State) (v) : (s.withPhase v).cutKey = s.cutKey := rfl
@[simp] theorem withPhase_inbox (s : State) (v) : (s.withPhase v).inbox = s.inbox := rfl
@[simp] theorem withPhase_draws (s : State) (v) : (s.withPhase v).draws = s.draws := rfl

/-! ### `withFcode` -/

@[simp] theorem withFcode_cfg (s : State) (v) : (s.withFcode v).cfg = s.cfg := rfl
@[simp] theorem withFcode_keys (s : State) (v) : (s.withFcode v).keys = s.keys := rfl
@[simp] theorem withFcode_ss (s : State) (v) : (s.withFcode v).ss = s.ss := rfl
@[simp] theorem withFcode_snap (s : State) (v) : (s.withFcode v).snap = s.snap := rfl
@[simp] theorem withFcode_eq (s : State) (v) : (s.withFcode v).eq = s.eq := rfl
@[simp] theorem withFcode_busy (s : State) (v) : (s.withFcode v).busy = s.busy := rfl
@[simp] theorem withFcode_cur (s : State) (v) : (s.withFcode v).cur = s.cur := rfl
@[simp] theorem withFcode_phase (s : State) (v) : (s.withFcode v).phase = s.phase := rfl
@[simp] theorem withFcode_fcode (s : State) (v) : (s.withFcode v).fcode = v := rfl
@[simp] theorem withFcode_faultKey (s : State) (v) : (s.withFcode v).faultKey = s.faultKey := rfl
@[simp] theorem withFcode_answer (s : State) (v) : (s.withFcode v).answer = s.answer := rfl
@[simp] theorem withFcode_stage (s : State) (v) : (s.withFcode v).stage = s.stage := rfl
@[simp] theorem withFcode_latch (s : State) (v) : (s.withFcode v).latch = s.latch := rfl
@[simp] theorem withFcode_cutKey (s : State) (v) : (s.withFcode v).cutKey = s.cutKey := rfl
@[simp] theorem withFcode_inbox (s : State) (v) : (s.withFcode v).inbox = s.inbox := rfl
@[simp] theorem withFcode_draws (s : State) (v) : (s.withFcode v).draws = s.draws := rfl

/-! ### `withFaultKey` -/

@[simp] theorem withFaultKey_cfg (s : State) (v) : (s.withFaultKey v).cfg = s.cfg := rfl
@[simp] theorem withFaultKey_keys (s : State) (v) : (s.withFaultKey v).keys = s.keys := rfl
@[simp] theorem withFaultKey_ss (s : State) (v) : (s.withFaultKey v).ss = s.ss := rfl
@[simp] theorem withFaultKey_snap (s : State) (v) : (s.withFaultKey v).snap = s.snap := rfl
@[simp] theorem withFaultKey_eq (s : State) (v) : (s.withFaultKey v).eq = s.eq := rfl
@[simp] theorem withFaultKey_busy (s : State) (v) : (s.withFaultKey v).busy = s.busy := rfl
@[simp] theorem withFaultKey_cur (s : State) (v) : (s.withFaultKey v).cur = s.cur := rfl
@[simp] theorem withFaultKey_phase (s : State) (v) : (s.withFaultKey v).phase = s.phase := rfl
@[simp] theorem withFaultKey_fcode (s : State) (v) : (s.withFaultKey v).fcode = s.fcode := rfl
@[simp] theorem withFaultKey_faultKey (s : State) (v) : (s.withFaultKey v).faultKey = v := rfl
@[simp] theorem withFaultKey_answer (s : State) (v) : (s.withFaultKey v).answer = s.answer := rfl
@[simp] theorem withFaultKey_stage (s : State) (v) : (s.withFaultKey v).stage = s.stage := rfl
@[simp] theorem withFaultKey_latch (s : State) (v) : (s.withFaultKey v).latch = s.latch := rfl
@[simp] theorem withFaultKey_cutKey (s : State) (v) : (s.withFaultKey v).cutKey = s.cutKey := rfl
@[simp] theorem withFaultKey_inbox (s : State) (v) : (s.withFaultKey v).inbox = s.inbox := rfl
@[simp] theorem withFaultKey_draws (s : State) (v) : (s.withFaultKey v).draws = s.draws := rfl

/-! ### `withAnswer` -/

@[simp] theorem withAnswer_cfg (s : State) (v) : (s.withAnswer v).cfg = s.cfg := rfl
@[simp] theorem withAnswer_keys (s : State) (v) : (s.withAnswer v).keys = s.keys := rfl
@[simp] theorem withAnswer_ss (s : State) (v) : (s.withAnswer v).ss = s.ss := rfl
@[simp] theorem withAnswer_snap (s : State) (v) : (s.withAnswer v).snap = s.snap := rfl
@[simp] theorem withAnswer_eq (s : State) (v) : (s.withAnswer v).eq = s.eq := rfl
@[simp] theorem withAnswer_busy (s : State) (v) : (s.withAnswer v).busy = s.busy := rfl
@[simp] theorem withAnswer_cur (s : State) (v) : (s.withAnswer v).cur = s.cur := rfl
@[simp] theorem withAnswer_phase (s : State) (v) : (s.withAnswer v).phase = s.phase := rfl
@[simp] theorem withAnswer_fcode (s : State) (v) : (s.withAnswer v).fcode = s.fcode := rfl
@[simp] theorem withAnswer_faultKey (s : State) (v) : (s.withAnswer v).faultKey = s.faultKey := rfl
@[simp] theorem withAnswer_answer (s : State) (v) : (s.withAnswer v).answer = v := rfl
@[simp] theorem withAnswer_stage (s : State) (v) : (s.withAnswer v).stage = s.stage := rfl
@[simp] theorem withAnswer_latch (s : State) (v) : (s.withAnswer v).latch = s.latch := rfl
@[simp] theorem withAnswer_cutKey (s : State) (v) : (s.withAnswer v).cutKey = s.cutKey := rfl
@[simp] theorem withAnswer_inbox (s : State) (v) : (s.withAnswer v).inbox = s.inbox := rfl
@[simp] theorem withAnswer_draws (s : State) (v) : (s.withAnswer v).draws = s.draws := rfl

/-! ### `withStage` -/

@[simp] theorem withStage_cfg (s : State) (v) : (s.withStage v).cfg = s.cfg := rfl
@[simp] theorem withStage_keys (s : State) (v) : (s.withStage v).keys = s.keys := rfl
@[simp] theorem withStage_ss (s : State) (v) : (s.withStage v).ss = s.ss := rfl
@[simp] theorem withStage_snap (s : State) (v) : (s.withStage v).snap = s.snap := rfl
@[simp] theorem withStage_eq (s : State) (v) : (s.withStage v).eq = s.eq := rfl
@[simp] theorem withStage_busy (s : State) (v) : (s.withStage v).busy = s.busy := rfl
@[simp] theorem withStage_cur (s : State) (v) : (s.withStage v).cur = s.cur := rfl
@[simp] theorem withStage_phase (s : State) (v) : (s.withStage v).phase = s.phase := rfl
@[simp] theorem withStage_fcode (s : State) (v) : (s.withStage v).fcode = s.fcode := rfl
@[simp] theorem withStage_faultKey (s : State) (v) : (s.withStage v).faultKey = s.faultKey := rfl
@[simp] theorem withStage_answer (s : State) (v) : (s.withStage v).answer = s.answer := rfl
@[simp] theorem withStage_stage (s : State) (v) : (s.withStage v).stage = v := rfl
@[simp] theorem withStage_latch (s : State) (v) : (s.withStage v).latch = s.latch := rfl
@[simp] theorem withStage_cutKey (s : State) (v) : (s.withStage v).cutKey = s.cutKey := rfl
@[simp] theorem withStage_inbox (s : State) (v) : (s.withStage v).inbox = s.inbox := rfl
@[simp] theorem withStage_draws (s : State) (v) : (s.withStage v).draws = s.draws := rfl

/-! ### `withLatch` -/

@[simp] theorem withLatch_cfg (s : State) (v) : (s.withLatch v).cfg = s.cfg := rfl
@[simp] theorem withLatch_keys (s : State) (v) : (s.withLatch v).keys = s.keys := rfl
@[simp] theorem withLatch_ss (s : State) (v) : (s.withLatch v).ss = s.ss := rfl
@[simp] theorem withLatch_snap (s : State) (v) : (s.withLatch v).snap = s.snap := rfl
@[simp] theorem withLatch_eq (s : State) (v) : (s.withLatch v).eq = s.eq := rfl
@[simp] theorem withLatch_busy (s : State) (v) : (s.withLatch v).busy = s.busy := rfl
@[simp] theorem withLatch_cur (s : State) (v) : (s.withLatch v).cur = s.cur := rfl
@[simp] theorem withLatch_phase (s : State) (v) : (s.withLatch v).phase = s.phase := rfl
@[simp] theorem withLatch_fcode (s : State) (v) : (s.withLatch v).fcode = s.fcode := rfl
@[simp] theorem withLatch_faultKey (s : State) (v) : (s.withLatch v).faultKey = s.faultKey := rfl
@[simp] theorem withLatch_answer (s : State) (v) : (s.withLatch v).answer = s.answer := rfl
@[simp] theorem withLatch_stage (s : State) (v) : (s.withLatch v).stage = s.stage := rfl
@[simp] theorem withLatch_latch (s : State) (v) : (s.withLatch v).latch = v := rfl
@[simp] theorem withLatch_cutKey (s : State) (v) : (s.withLatch v).cutKey = s.cutKey := rfl
@[simp] theorem withLatch_inbox (s : State) (v) : (s.withLatch v).inbox = s.inbox := rfl
@[simp] theorem withLatch_draws (s : State) (v) : (s.withLatch v).draws = s.draws := rfl

/-! ### `withCutKey` -/

@[simp] theorem withCutKey_cfg (s : State) (v) : (s.withCutKey v).cfg = s.cfg := rfl
@[simp] theorem withCutKey_keys (s : State) (v) : (s.withCutKey v).keys = s.keys := rfl
@[simp] theorem withCutKey_ss (s : State) (v) : (s.withCutKey v).ss = s.ss := rfl
@[simp] theorem withCutKey_snap (s : State) (v) : (s.withCutKey v).snap = s.snap := rfl
@[simp] theorem withCutKey_eq (s : State) (v) : (s.withCutKey v).eq = s.eq := rfl
@[simp] theorem withCutKey_busy (s : State) (v) : (s.withCutKey v).busy = s.busy := rfl
@[simp] theorem withCutKey_cur (s : State) (v) : (s.withCutKey v).cur = s.cur := rfl
@[simp] theorem withCutKey_phase (s : State) (v) : (s.withCutKey v).phase = s.phase := rfl
@[simp] theorem withCutKey_fcode (s : State) (v) : (s.withCutKey v).fcode = s.fcode := rfl
@[simp] theorem withCutKey_faultKey (s : State) (v) : (s.withCutKey v).faultKey = s.faultKey := rfl
@[simp] theorem withCutKey_answer (s : State) (v) : (s.withCutKey v).answer = s.answer := rfl
@[simp] theorem withCutKey_stage (s : State) (v) : (s.withCutKey v).stage = s.stage := rfl
@[simp] theorem withCutKey_latch (s : State) (v) : (s.withCutKey v).latch = s.latch := rfl
@[simp] theorem withCutKey_cutKey (s : State) (v) : (s.withCutKey v).cutKey = v := rfl
@[simp] theorem withCutKey_inbox (s : State) (v) : (s.withCutKey v).inbox = s.inbox := rfl
@[simp] theorem withCutKey_draws (s : State) (v) : (s.withCutKey v).draws = s.draws := rfl

/-! ### `withInbox` -/

@[simp] theorem withInbox_cfg (s : State) (v) : (s.withInbox v).cfg = s.cfg := rfl
@[simp] theorem withInbox_keys (s : State) (v) : (s.withInbox v).keys = s.keys := rfl
@[simp] theorem withInbox_ss (s : State) (v) : (s.withInbox v).ss = s.ss := rfl
@[simp] theorem withInbox_snap (s : State) (v) : (s.withInbox v).snap = s.snap := rfl
@[simp] theorem withInbox_eq (s : State) (v) : (s.withInbox v).eq = s.eq := rfl
@[simp] theorem withInbox_busy (s : State) (v) : (s.withInbox v).busy = s.busy := rfl
@[simp] theorem withInbox_cur (s : State) (v) : (s.withInbox v).cur = s.cur := rfl
@[simp] theorem withInbox_phase (s : State) (v) : (s.withInbox v).phase = s.phase := rfl
@[simp] theorem withInbox_fcode (s : State) (v) : (s.withInbox v).fcode = s.fcode := rfl
@[simp] theorem withInbox_faultKey (s : State) (v) : (s.withInbox v).faultKey = s.faultKey := rfl
@[simp] theorem withInbox_answer (s : State) (v) : (s.withInbox v).answer = s.answer := rfl
@[simp] theorem withInbox_stage (s : State) (v) : (s.withInbox v).stage = s.stage := rfl
@[simp] theorem withInbox_latch (s : State) (v) : (s.withInbox v).latch = s.latch := rfl
@[simp] theorem withInbox_cutKey (s : State) (v) : (s.withInbox v).cutKey = s.cutKey := rfl
@[simp] theorem withInbox_inbox (s : State) (v) : (s.withInbox v).inbox = v := rfl
@[simp] theorem withInbox_draws (s : State) (v) : (s.withInbox v).draws = s.draws := rfl

/-! ### `withDraws` -/

@[simp] theorem withDraws_cfg (s : State) (v) : (s.withDraws v).cfg = s.cfg := rfl
@[simp] theorem withDraws_keys (s : State) (v) : (s.withDraws v).keys = s.keys := rfl
@[simp] theorem withDraws_ss (s : State) (v) : (s.withDraws v).ss = s.ss := rfl
@[simp] theorem withDraws_snap (s : State) (v) : (s.withDraws v).snap = s.snap := rfl
@[simp] theorem withDraws_eq (s : State) (v) : (s.withDraws v).eq = s.eq := rfl
@[simp] theorem withDraws_busy (s : State) (v) : (s.withDraws v).busy = s.busy := rfl
@[simp] theorem withDraws_cur (s : State) (v) : (s.withDraws v).cur = s.cur := rfl
@[simp] theorem withDraws_phase (s : State) (v) : (s.withDraws v).phase = s.phase := rfl
@[simp] theorem withDraws_fcode (s : State) (v) : (s.withDraws v).fcode = s.fcode := rfl
@[simp] theorem withDraws_faultKey (s : State) (v) : (s.withDraws v).faultKey = s.faultKey := rfl
@[simp] theorem withDraws_answer (s : State) (v) : (s.withDraws v).answer = s.answer := rfl
@[simp] theorem withDraws_stage (s : State) (v) : (s.withDraws v).stage = s.stage := rfl
@[simp] theorem withDraws_latch (s : State) (v) : (s.withDraws v).latch = s.latch := rfl
@[simp] theorem withDraws_cutKey (s : State) (v) : (s.withDraws v).cutKey = s.cutKey := rfl
@[simp] theorem withDraws_inbox (s : State) (v) : (s.withDraws v).inbox = s.inbox := rfl
@[simp] theorem withDraws_draws (s : State) (v) : (s.withDraws v).draws = v := rfl

end Sys2Proof.Machine.State
end

