-- ==== Sys2Proof/Laws/Updates.lean ====
section
/-! SUPPORT. The field lemmas of the composed updates: what a register write, an answer, a fault taken, the start and the
end of a dispatch leave in every field. -/

namespace Sys2Proof.Machine.State

/-! ### `setKey` -/

@[simp] theorem setKey_cfg (s : State) (r c : Idx) (d : Debouncer) : (s.setKey r c d).cfg = s.cfg := rfl
@[simp] theorem setKey_ss (s : State) (r c : Idx) (d : Debouncer) : (s.setKey r c d).ss = s.ss := rfl
@[simp] theorem setKey_snap (s : State) (r c : Idx) (d : Debouncer) : (s.setKey r c d).snap = s.snap := rfl
@[simp] theorem setKey_eq (s : State) (r c : Idx) (d : Debouncer) : (s.setKey r c d).eq = s.eq := rfl
@[simp] theorem setKey_busy (s : State) (r c : Idx) (d : Debouncer) : (s.setKey r c d).busy = s.busy := rfl
@[simp] theorem setKey_cur (s : State) (r c : Idx) (d : Debouncer) : (s.setKey r c d).cur = s.cur := rfl
@[simp] theorem setKey_phase (s : State) (r c : Idx) (d : Debouncer) : (s.setKey r c d).phase = s.phase := rfl
@[simp] theorem setKey_fcode (s : State) (r c : Idx) (d : Debouncer) : (s.setKey r c d).fcode = s.fcode := rfl
@[simp] theorem setKey_faultKey (s : State) (r c : Idx) (d : Debouncer) : (s.setKey r c d).faultKey = s.faultKey := rfl
@[simp] theorem setKey_answer (s : State) (r c : Idx) (d : Debouncer) : (s.setKey r c d).answer = s.answer := rfl
@[simp] theorem setKey_stage (s : State) (r c : Idx) (d : Debouncer) : (s.setKey r c d).stage = s.stage := rfl
@[simp] theorem setKey_latch (s : State) (r c : Idx) (d : Debouncer) : (s.setKey r c d).latch = s.latch := rfl
@[simp] theorem setKey_cutKey (s : State) (r c : Idx) (d : Debouncer) : (s.setKey r c d).cutKey = s.cutKey := rfl
@[simp] theorem setKey_inbox (s : State) (r c : Idx) (d : Debouncer) : (s.setKey r c d).inbox = s.inbox := rfl
@[simp] theorem setKey_draws (s : State) (r c : Idx) (d : Debouncer) : (s.setKey r c d).draws = s.draws := rfl

/-! ### `setSsBit` -/

@[simp] theorem setSsBit_cfg (s : State) (r c : Idx) (b : Level) : (s.setSsBit r c b).cfg = s.cfg := rfl
@[simp] theorem setSsBit_keys (s : State) (r c : Idx) (b : Level) : (s.setSsBit r c b).keys = s.keys := rfl
@[simp] theorem setSsBit_snap (s : State) (r c : Idx) (b : Level) : (s.setSsBit r c b).snap = s.snap := rfl
@[simp] theorem setSsBit_eq (s : State) (r c : Idx) (b : Level) : (s.setSsBit r c b).eq = s.eq := rfl
@[simp] theorem setSsBit_busy (s : State) (r c : Idx) (b : Level) : (s.setSsBit r c b).busy = s.busy := rfl
@[simp] theorem setSsBit_cur (s : State) (r c : Idx) (b : Level) : (s.setSsBit r c b).cur = s.cur := rfl
@[simp] theorem setSsBit_phase (s : State) (r c : Idx) (b : Level) : (s.setSsBit r c b).phase = s.phase := rfl
@[simp] theorem setSsBit_fcode (s : State) (r c : Idx) (b : Level) : (s.setSsBit r c b).fcode = s.fcode := rfl
@[simp] theorem setSsBit_faultKey (s : State) (r c : Idx) (b : Level) : (s.setSsBit r c b).faultKey = s.faultKey := rfl
@[simp] theorem setSsBit_answer (s : State) (r c : Idx) (b : Level) : (s.setSsBit r c b).answer = s.answer := rfl
@[simp] theorem setSsBit_stage (s : State) (r c : Idx) (b : Level) : (s.setSsBit r c b).stage = s.stage := rfl
@[simp] theorem setSsBit_latch (s : State) (r c : Idx) (b : Level) : (s.setSsBit r c b).latch = s.latch := rfl
@[simp] theorem setSsBit_cutKey (s : State) (r c : Idx) (b : Level) : (s.setSsBit r c b).cutKey = s.cutKey := rfl
@[simp] theorem setSsBit_inbox (s : State) (r c : Idx) (b : Level) : (s.setSsBit r c b).inbox = s.inbox := rfl
@[simp] theorem setSsBit_draws (s : State) (r c : Idx) (b : Level) : (s.setSsBit r c b).draws = s.draws := rfl

/-! ### `setSnap` -/

@[simp] theorem setSnap_cfg (s : State) (h : Half) (r : Idx) (w : Word) : (s.setSnap h r w).cfg = s.cfg := rfl
@[simp] theorem setSnap_keys (s : State) (h : Half) (r : Idx) (w : Word) : (s.setSnap h r w).keys = s.keys := rfl
@[simp] theorem setSnap_ss (s : State) (h : Half) (r : Idx) (w : Word) : (s.setSnap h r w).ss = s.ss := rfl
@[simp] theorem setSnap_snap (s : State) (h : Half) (r : Idx) (w : Word) : (s.setSnap h r w).snap = Memory.write s.snap (snapCell h r) w := rfl
@[simp] theorem setSnap_eq (s : State) (h : Half) (r : Idx) (w : Word) : (s.setSnap h r w).eq = s.eq := rfl
@[simp] theorem setSnap_busy (s : State) (h : Half) (r : Idx) (w : Word) : (s.setSnap h r w).busy = s.busy := rfl
@[simp] theorem setSnap_cur (s : State) (h : Half) (r : Idx) (w : Word) : (s.setSnap h r w).cur = s.cur := rfl
@[simp] theorem setSnap_phase (s : State) (h : Half) (r : Idx) (w : Word) : (s.setSnap h r w).phase = s.phase := rfl
@[simp] theorem setSnap_fcode (s : State) (h : Half) (r : Idx) (w : Word) : (s.setSnap h r w).fcode = s.fcode := rfl
@[simp] theorem setSnap_faultKey (s : State) (h : Half) (r : Idx) (w : Word) : (s.setSnap h r w).faultKey = s.faultKey := rfl
@[simp] theorem setSnap_answer (s : State) (h : Half) (r : Idx) (w : Word) : (s.setSnap h r w).answer = s.answer := rfl
@[simp] theorem setSnap_stage (s : State) (h : Half) (r : Idx) (w : Word) : (s.setSnap h r w).stage = s.stage := rfl
@[simp] theorem setSnap_latch (s : State) (h : Half) (r : Idx) (w : Word) : (s.setSnap h r w).latch = s.latch := rfl
@[simp] theorem setSnap_cutKey (s : State) (h : Half) (r : Idx) (w : Word) : (s.setSnap h r w).cutKey = s.cutKey := rfl
@[simp] theorem setSnap_inbox (s : State) (h : Half) (r : Idx) (w : Word) : (s.setSnap h r w).inbox = s.inbox := rfl
@[simp] theorem setSnap_draws (s : State) (h : Half) (r : Idx) (w : Word) : (s.setSnap h r w).draws = s.draws := rfl

/-! ### `done` -/

@[simp] theorem done_cfg (s : State) : s.done.cfg = s.cfg := rfl
@[simp] theorem done_keys (s : State) : s.done.keys = s.keys := rfl
@[simp] theorem done_ss (s : State) : s.done.ss = s.ss := rfl
@[simp] theorem done_snap (s : State) : s.done.snap = s.snap := rfl
@[simp] theorem done_eq (s : State) : s.done.eq = s.eq := rfl
@[simp] theorem done_busy (s : State) : s.done.busy = s.busy := rfl
@[simp] theorem done_cur (s : State) : s.done.cur = s.cur := rfl
@[simp] theorem done_phase (s : State) : s.done.phase = s.phase := rfl
@[simp] theorem done_fcode (s : State) : s.done.fcode = s.fcode := rfl
@[simp] theorem done_faultKey (s : State) : s.done.faultKey = s.faultKey := rfl
@[simp] theorem done_answer (s : State) : s.done.answer = some { status := Code.none.num, data := none } := rfl
@[simp] theorem done_stage (s : State) : s.done.stage = s.stage := rfl
@[simp] theorem done_latch (s : State) : s.done.latch = s.latch := rfl
@[simp] theorem done_cutKey (s : State) : s.done.cutKey = s.cutKey := rfl
@[simp] theorem done_inbox (s : State) : s.done.inbox = s.inbox := rfl
@[simp] theorem done_draws (s : State) : s.done.draws = s.draws := rfl

/-! ### `doneWith` -/

@[simp] theorem doneWith_cfg (s : State) (w : Word) : (s.doneWith w).cfg = s.cfg := rfl
@[simp] theorem doneWith_keys (s : State) (w : Word) : (s.doneWith w).keys = s.keys := rfl
@[simp] theorem doneWith_ss (s : State) (w : Word) : (s.doneWith w).ss = s.ss := rfl
@[simp] theorem doneWith_snap (s : State) (w : Word) : (s.doneWith w).snap = s.snap := rfl
@[simp] theorem doneWith_eq (s : State) (w : Word) : (s.doneWith w).eq = s.eq := rfl
@[simp] theorem doneWith_busy (s : State) (w : Word) : (s.doneWith w).busy = s.busy := rfl
@[simp] theorem doneWith_cur (s : State) (w : Word) : (s.doneWith w).cur = s.cur := rfl
@[simp] theorem doneWith_phase (s : State) (w : Word) : (s.doneWith w).phase = s.phase := rfl
@[simp] theorem doneWith_fcode (s : State) (w : Word) : (s.doneWith w).fcode = s.fcode := rfl
@[simp] theorem doneWith_faultKey (s : State) (w : Word) : (s.doneWith w).faultKey = s.faultKey := rfl
@[simp] theorem doneWith_answer (s : State) (w : Word) : (s.doneWith w).answer = some { status := Code.none.num, data := some w } := rfl
@[simp] theorem doneWith_stage (s : State) (w : Word) : (s.doneWith w).stage = s.stage := rfl
@[simp] theorem doneWith_latch (s : State) (w : Word) : (s.doneWith w).latch = s.latch := rfl
@[simp] theorem doneWith_cutKey (s : State) (w : Word) : (s.doneWith w).cutKey = s.cutKey := rfl
@[simp] theorem doneWith_inbox (s : State) (w : Word) : (s.doneWith w).inbox = s.inbox := rfl
@[simp] theorem doneWith_draws (s : State) (w : Word) : (s.doneWith w).draws = s.draws := rfl

/-! ### `refuse` -/

@[simp] theorem refuse_cfg (s : State) (c : Code) : (s.refuse c).cfg = s.cfg := rfl
@[simp] theorem refuse_keys (s : State) (c : Code) : (s.refuse c).keys = s.keys := rfl
@[simp] theorem refuse_ss (s : State) (c : Code) : (s.refuse c).ss = s.ss := rfl
@[simp] theorem refuse_snap (s : State) (c : Code) : (s.refuse c).snap = s.snap := rfl
@[simp] theorem refuse_eq (s : State) (c : Code) : (s.refuse c).eq = s.eq := rfl
@[simp] theorem refuse_busy (s : State) (c : Code) : (s.refuse c).busy = s.busy := rfl
@[simp] theorem refuse_cur (s : State) (c : Code) : (s.refuse c).cur = s.cur := rfl
@[simp] theorem refuse_phase (s : State) (c : Code) : (s.refuse c).phase = s.phase := rfl
@[simp] theorem refuse_fcode (s : State) (c : Code) : (s.refuse c).fcode = s.fcode := rfl
@[simp] theorem refuse_faultKey (s : State) (c : Code) : (s.refuse c).faultKey = s.faultKey := rfl
@[simp] theorem refuse_answer (s : State) (c : Code) : (s.refuse c).answer = some { status := c.num, data := none } := rfl
@[simp] theorem refuse_stage (s : State) (c : Code) : (s.refuse c).stage = s.stage := rfl
@[simp] theorem refuse_latch (s : State) (c : Code) : (s.refuse c).latch = s.latch := rfl
@[simp] theorem refuse_cutKey (s : State) (c : Code) : (s.refuse c).cutKey = s.cutKey := rfl
@[simp] theorem refuse_inbox (s : State) (c : Code) : (s.refuse c).inbox = s.inbox := rfl
@[simp] theorem refuse_draws (s : State) (c : Code) : (s.refuse c).draws = s.draws := rfl

/-! ### `takeFault` -/

@[simp] theorem takeFault_cfg (s : State) (c : Code) : (s.takeFault c).cfg = s.cfg := rfl
@[simp] theorem takeFault_keys (s : State) (c : Code) : (s.takeFault c).keys = s.keys := rfl
@[simp] theorem takeFault_ss (s : State) (c : Code) : (s.takeFault c).ss = s.ss := rfl
@[simp] theorem takeFault_snap (s : State) (c : Code) : (s.takeFault c).snap = s.snap := rfl
@[simp] theorem takeFault_eq (s : State) (c : Code) : (s.takeFault c).eq = s.eq := rfl
@[simp] theorem takeFault_busy (s : State) (c : Code) : (s.takeFault c).busy = s.busy := rfl
@[simp] theorem takeFault_cur (s : State) (c : Code) : (s.takeFault c).cur = s.cur := rfl
@[simp] theorem takeFault_phase (s : State) (c : Code) : (s.takeFault c).phase = .failed := rfl
@[simp] theorem takeFault_fcode (s : State) (c : Code) : (s.takeFault c).fcode = c.num := rfl
@[simp] theorem takeFault_faultKey (s : State) (c : Code) : (s.takeFault c).faultKey = s.faultKey := rfl
@[simp] theorem takeFault_answer (s : State) (c : Code) : (s.takeFault c).answer = s.answer := rfl
@[simp] theorem takeFault_stage (s : State) (c : Code) : (s.takeFault c).stage = s.stage := rfl
@[simp] theorem takeFault_latch (s : State) (c : Code) : (s.takeFault c).latch = s.latch := rfl
@[simp] theorem takeFault_cutKey (s : State) (c : Code) : (s.takeFault c).cutKey = s.cutKey := rfl
@[simp] theorem takeFault_inbox (s : State) (c : Code) : (s.takeFault c).inbox = s.inbox := rfl
@[simp] theorem takeFault_draws (s : State) (c : Code) : (s.takeFault c).draws = s.draws := rfl

/-! ### `endDispatch` -/

@[simp] theorem endDispatch_cfg (s : State) : s.endDispatch.cfg = s.cfg := rfl
@[simp] theorem endDispatch_keys (s : State) : s.endDispatch.keys = s.keys := rfl
@[simp] theorem endDispatch_ss (s : State) : s.endDispatch.ss = s.ss := rfl
@[simp] theorem endDispatch_snap (s : State) : s.endDispatch.snap = s.snap := rfl
@[simp] theorem endDispatch_eq (s : State) : s.endDispatch.eq = s.eq := rfl
@[simp] theorem endDispatch_busy (s : State) : s.endDispatch.busy = false := rfl
@[simp] theorem endDispatch_cur (s : State) : s.endDispatch.cur = s.cur := rfl
@[simp] theorem endDispatch_phase (s : State) : s.endDispatch.phase = s.phase := rfl
@[simp] theorem endDispatch_fcode (s : State) : s.endDispatch.fcode = s.fcode := rfl
@[simp] theorem endDispatch_faultKey (s : State) : s.endDispatch.faultKey = s.faultKey := rfl
@[simp] theorem endDispatch_answer (s : State) : s.endDispatch.answer = s.answer := rfl
@[simp] theorem endDispatch_stage (s : State) : s.endDispatch.stage = .keyStart := rfl
@[simp] theorem endDispatch_latch (s : State) : s.endDispatch.latch = s.latch := rfl
@[simp] theorem endDispatch_cutKey (s : State) : s.endDispatch.cutKey = none := rfl
@[simp] theorem endDispatch_inbox (s : State) : s.endDispatch.inbox = s.inbox := rfl
@[simp] theorem endDispatch_draws (s : State) : s.endDispatch.draws = s.draws := rfl

/-! ### `abortDispatch` -/

@[simp] theorem abortDispatch_cfg (s : State) : s.abortDispatch.cfg = s.cfg := rfl
@[simp] theorem abortDispatch_keys (s : State) : s.abortDispatch.keys = s.keys := rfl
@[simp] theorem abortDispatch_ss (s : State) : s.abortDispatch.ss = s.ss := rfl
@[simp] theorem abortDispatch_snap (s : State) : s.abortDispatch.snap = s.snap := rfl
@[simp] theorem abortDispatch_eq (s : State) : s.abortDispatch.eq = s.eq := rfl
@[simp] theorem abortDispatch_busy (s : State) : s.abortDispatch.busy = false := rfl
@[simp] theorem abortDispatch_cur (s : State) : s.abortDispatch.cur = s.cur := rfl
@[simp] theorem abortDispatch_phase (s : State) : s.abortDispatch.phase = s.phase := rfl
@[simp] theorem abortDispatch_fcode (s : State) : s.abortDispatch.fcode = s.fcode := rfl
@[simp] theorem abortDispatch_faultKey (s : State) : s.abortDispatch.faultKey = s.faultKey := rfl
@[simp] theorem abortDispatch_answer (s : State) : s.abortDispatch.answer = s.answer := rfl
@[simp] theorem abortDispatch_stage (s : State) : s.abortDispatch.stage = s.stage := rfl
@[simp] theorem abortDispatch_latch (s : State) : s.abortDispatch.latch = s.latch := rfl
@[simp] theorem abortDispatch_cutKey (s : State) : s.abortDispatch.cutKey = s.keyInProgress := rfl
@[simp] theorem abortDispatch_inbox (s : State) : s.abortDispatch.inbox = s.inbox := rfl
@[simp] theorem abortDispatch_draws (s : State) : s.abortDispatch.draws = s.draws := rfl

/-! ### `beginDispatch` -/

@[simp] theorem beginDispatch_cfg (s : State) (h : Half) : (s.beginDispatch h).cfg = s.cfg := rfl
@[simp] theorem beginDispatch_keys (s : State) (h : Half) : (s.beginDispatch h).keys = s.keys := rfl
@[simp] theorem beginDispatch_ss (s : State) (h : Half) : (s.beginDispatch h).ss = s.ss := rfl
@[simp] theorem beginDispatch_snap (s : State) (h : Half) : (s.beginDispatch h).snap = s.snap := rfl
@[simp] theorem beginDispatch_eq (s : State) (h : Half) : (s.beginDispatch h).eq = s.eq := rfl
@[simp] theorem beginDispatch_busy (s : State) (h : Half) : (s.beginDispatch h).busy = true := rfl
@[simp] theorem beginDispatch_cur (s : State) (h : Half) : (s.beginDispatch h).cur = { h := h, r := 0, c := 0 } := rfl
@[simp] theorem beginDispatch_phase (s : State) (h : Half) : (s.beginDispatch h).phase = s.phase := rfl
@[simp] theorem beginDispatch_fcode (s : State) (h : Half) : (s.beginDispatch h).fcode = s.fcode := rfl
@[simp] theorem beginDispatch_faultKey (s : State) (h : Half) : (s.beginDispatch h).faultKey = s.faultKey := rfl
@[simp] theorem beginDispatch_answer (s : State) (h : Half) : (s.beginDispatch h).answer = s.answer := rfl
@[simp] theorem beginDispatch_stage (s : State) (h : Half) : 
    (s.beginDispatch h).stage = if s.cutKey.isSome then s.stage else .keyStart := rfl
@[simp] theorem beginDispatch_latch (s : State) (h : Half) : (s.beginDispatch h).latch = s.latch := rfl
@[simp] theorem beginDispatch_cutKey (s : State) (h : Half) : (s.beginDispatch h).cutKey = s.cutKey := rfl
@[simp] theorem beginDispatch_inbox (s : State) (h : Half) : (s.beginDispatch h).inbox = s.inbox := rfl
@[simp] theorem beginDispatch_draws (s : State) (h : Half) : (s.beginDispatch h).draws = s.draws := rfl

/-! ### `opDebout` -/

@[simp] theorem opDebout_cfg (s : State) (r c : Idx) : (s.opDebout r c).cfg = s.cfg := rfl
@[simp] theorem opDebout_keys (s : State) (r c : Idx) : (s.opDebout r c).keys = s.keys := rfl
@[simp] theorem opDebout_ss (s : State) (r c : Idx) : (s.opDebout r c).ss = s.ss := rfl
@[simp] theorem opDebout_snap (s : State) (r c : Idx) : (s.opDebout r c).snap = s.snap := rfl
@[simp] theorem opDebout_eq (s : State) (r c : Idx) : (s.opDebout r c).eq = s.eq := rfl
@[simp] theorem opDebout_busy (s : State) (r c : Idx) : (s.opDebout r c).busy = s.busy := rfl
@[simp] theorem opDebout_cur (s : State) (r c : Idx) : (s.opDebout r c).cur = s.cur := rfl
@[simp] theorem opDebout_phase (s : State) (r c : Idx) : (s.opDebout r c).phase = s.phase := rfl
@[simp] theorem opDebout_fcode (s : State) (r c : Idx) : (s.opDebout r c).fcode = s.fcode := rfl
@[simp] theorem opDebout_faultKey (s : State) (r c : Idx) : (s.opDebout r c).faultKey = s.faultKey := rfl
@[simp] theorem opDebout_answer (s : State) (r c : Idx) : (s.opDebout r c).answer = s.answer := rfl
@[simp] theorem opDebout_stage (s : State) (r c : Idx) : (s.opDebout r c).stage = s.stage := rfl
@[simp] theorem opDebout_latch (s : State) (r c : Idx) : (s.opDebout r c).latch = { s.latch with output := (s.key r c).fsm.out } := rfl
@[simp] theorem opDebout_cutKey (s : State) (r c : Idx) : (s.opDebout r c).cutKey = s.cutKey := rfl
@[simp] theorem opDebout_inbox (s : State) (r c : Idx) : (s.opDebout r c).inbox = s.inbox := rfl
@[simp] theorem opDebout_draws (s : State) (r c : Idx) : (s.opDebout r c).draws = s.draws := rfl

/-! ### `opSswr` -/

@[simp] theorem opSswr_cfg (s : State) (r c : Idx) (b : Level) : (s.opSswr r c b).cfg = s.cfg := rfl
@[simp] theorem opSswr_keys (s : State) (r c : Idx) (b : Level) : (s.opSswr r c b).keys = s.keys := rfl
@[simp] theorem opSswr_snap (s : State) (r c : Idx) (b : Level) : (s.opSswr r c b).snap = s.snap := rfl
@[simp] theorem opSswr_eq (s : State) (r c : Idx) (b : Level) : (s.opSswr r c b).eq = s.eq := rfl
@[simp] theorem opSswr_busy (s : State) (r c : Idx) (b : Level) : (s.opSswr r c b).busy = s.busy := rfl
@[simp] theorem opSswr_cur (s : State) (r c : Idx) (b : Level) : (s.opSswr r c b).cur = s.cur := rfl
@[simp] theorem opSswr_phase (s : State) (r c : Idx) (b : Level) : (s.opSswr r c b).phase = s.phase := rfl
@[simp] theorem opSswr_fcode (s : State) (r c : Idx) (b : Level) : (s.opSswr r c b).fcode = s.fcode := rfl
@[simp] theorem opSswr_faultKey (s : State) (r c : Idx) (b : Level) : (s.opSswr r c b).faultKey = s.faultKey := rfl
@[simp] theorem opSswr_answer (s : State) (r c : Idx) (b : Level) : (s.opSswr r c b).answer = s.answer := rfl
@[simp] theorem opSswr_stage (s : State) (r c : Idx) (b : Level) : (s.opSswr r c b).stage = s.stage := rfl
@[simp] theorem opSswr_latch (s : State) (r c : Idx) (b : Level) : (s.opSswr r c b).latch = s.latch := rfl
@[simp] theorem opSswr_cutKey (s : State) (r c : Idx) (b : Level) : (s.opSswr r c b).cutKey = s.cutKey := rfl
@[simp] theorem opSswr_inbox (s : State) (r c : Idx) (b : Level) : (s.opSswr r c b).inbox = s.inbox := rfl
@[simp] theorem opSswr_draws (s : State) (r c : Idx) (b : Level) : (s.opSswr r c b).draws = s.draws := rfl

end Sys2Proof.Machine.State
end

