-- ==== Sys2Proof/Laws/Registers.lean ====
section
/-! SUPPORT. The register files through their accessors: a read after a write of a Debouncer, of a StateStore bit and of
a snapshot word, and the key the scan cursor names. -/

namespace Sys2Proof.Machine

theorem inMatrix_iff {P : Config} {r c : Idx} : inMatrix P r c = true ↔ r.val < P.rows ∧ c.val < P.cols := by
  simp [inMatrix]

theorem inRow_iff {P : Config} {r : Idx} : inRow P r = true ↔ r.val < P.rows := by simp [inRow]

/-! ### Debouncers -/

theorem State.key_congr {s t : State} (h : t.keys = s.keys) (r c : Idx) : t.key r c = s.key r c := by
  simp only [State.key, h]

@[simp] theorem State.key_setKey_same (s : State) (r c : Idx) (d : Debouncer) : (s.setKey r c d).key r c = d := by
  simp [State.key, State.setKey]

theorem State.key_setKey_other {r c r' c' : Idx} (s : State) (d : Debouncer) (h : (r', c') ≠ (r, c)) :
    (s.setKey r c d).key r' c' = s.key r' c' := by
  simp only [State.key, State.setKey, State.withKeys_keys, Vector.getElem_set]
  by_cases hr : r = r'
  · subst hr
    have hc : c.val ≠ c'.val := fun e => h (by rw [Fin.ext e])
    simp [hc]
  · have : r.val ≠ r'.val := fun e => hr (Fin.ext e)
    simp [this]

/-! ### StateStore -/

theorem State.ssBit_congr {s t : State} (h : t.ss = s.ss) (r c : Idx) : t.ssBit r c = s.ssBit r c := by
  simp only [State.ssBit, h]

theorem Word.getLsbD_putBit (w : Word) (c c' : Idx) (b : Level) :
    (Word.putBit w c b).getLsbD c'.val = if c' = c then b else w.getLsbD c'.val := by
  have hc : (c'.val - c.val = 0 ∧ c.val ≤ c'.val) ↔ c' = c := by rw [Fin.ext_iff]; omega
  cases b
  · by_cases h : c' = c
    · subst h; simp [Word.putBit]
    · have hne : c'.val ≠ c.val := fun e => h (Fin.ext e)
      simp only [Word.putBit, Bool.false_eq_true, if_false, BitVec.getLsbD_and, BitVec.getLsbD_not,
        BitVec.getLsbD_shiftLeft, c'.isLt, decide_true, Bool.true_and, BitVec.getLsbD_one, if_neg h]
      by_cases hl : c'.val < c.val
      · simp [hl]
      · have : c'.val - c.val ≠ 0 := by omega
        simp [hl, this]
  · by_cases h : c' = c
    · subst h; simp [Word.putBit]
    · have hne : c'.val ≠ c.val := fun e => h (Fin.ext e)
      simp only [Word.putBit, if_true, BitVec.getLsbD_or, BitVec.getLsbD_shiftLeft, c'.isLt, decide_true,
        Bool.true_and, BitVec.getLsbD_one, if_neg h]
      by_cases hl : c'.val < c.val
      · simp [hl]
      · have : c'.val - c.val ≠ 0 := by omega
        simp [hl, this]

@[simp] theorem State.ssBit_setSsBit_same (s : State) (r c : Idx) (b : Level) : (s.setSsBit r c b).ssBit r c = b := by
  simp only [State.ssBit, State.setSsBit, State.withSs_ss, Vector.getElem_set_self, Word.getLsbD_putBit, if_true]

theorem State.ssBit_setSsBit_other {r c r' c' : Idx} (s : State) (b : Level) (h : (r', c') ≠ (r, c)) :
    (s.setSsBit r c b).ssBit r' c' = s.ssBit r' c' := by
  simp only [State.ssBit, State.setSsBit, State.withSs_ss, Vector.getElem_set]
  by_cases hr : r = r'
  · subst hr
    have hc : c' ≠ c := fun e => h (by rw [e])
    rw [if_pos rfl, Word.getLsbD_putBit, if_neg hc]
  · have : r.val ≠ r'.val := fun e => hr (Fin.ext e)
    simp [this]

/-! ### SnapshotBuffer -/

theorem State.snapWord_congr {s t : State} (h : t.snap = s.snap) (k : Half) (r : Idx) :
    t.snapWord k r = s.snapWord k r := by
  simp only [State.snapWord, h]

@[simp] theorem State.snapWord_setSnap_same (s : State) (h : Half) (r : Idx) (w : Word) :
    (s.setSnap h r w).snapWord h r = some w := by
  simp only [State.snapWord, State.setSnap_snap, Memory.read_write_same]

theorem State.snapWord_setSnap_other {h h' : Half} {r r' : Idx} {s : State} (w : Word) (hm : Memory.wf s.snap)
    (hne : (h', r') ≠ (h, r)) : (s.setSnap h r w).snapWord h' r' = s.snapWord h' r' := by
  simp only [State.snapWord, State.setSnap_snap]
  exact Memory.read_write_other w hm fun e => hne (snapCell_inj e)

theorem State.setSnap_memory_wf {s : State} (h : Half) (r : Idx) (w : Word) (hm : Memory.wf s.snap) :
    Memory.wf (s.setSnap h r w).snap := by
  rw [State.setSnap_snap]
  exact Memory.wf_write w hm (snapCell_lt h r)

/-! ### The scan cursor -/

theorem State.cursorKey_congr {s t : State} (hc : t.cur = s.cur) (hP : t.cfg = s.cfg) : t.cursorKey = s.cursorKey := by
  simp only [State.cursorKey, hc, hP]

/-- The key the cursor names is a key of the matrix, with the cursor's row and column. -/
theorem State.cursorKey_spec {s : State} {r c : Idx} (h : s.cursorKey = some (r, c)) :
    inMatrix s.cfg r c = true ∧ s.cur.r = r.val ∧ s.cur.c = c.val := by
  unfold State.cursorKey at h
  split at h
  · split at h
    · rename_i h2
      cases h
      exact ⟨h2, rfl, rfl⟩
    · cases h
  · cases h

/-- A cursor on a row and a column of the matrix names that key. -/
theorem State.cursorKey_of {s : State} {r c : Idx} (hm : inMatrix s.cfg r c = true) (hr : s.cur.r = r.val)
    (hc : s.cur.c = c.val) : s.cursorKey = some (r, c) := by
  simp [State.cursorKey, hr, hc, hm]

/-! ### The key the engine works on -/

theorem State.dueKey_congr {s t : State} (hc : t.cur = s.cur) (hP : t.cfg = s.cfg) (hk : t.cutKey = s.cutKey) :
    t.dueKey = s.dueKey := by
  simp only [State.dueKey, hk, hP, State.cursorKey_congr hc hP]

/-- With no key step cut off by STOP the engine works on the cursor's key. -/
theorem State.dueKey_of_cursor {s : State} (h : s.cutKey = none) : s.dueKey = s.cursorKey := by
  simp only [State.dueKey, h]

/-- A key step cut off by STOP is what the engine works on. -/
theorem State.dueKey_of_cut {s : State} {r c : Idx} (h : s.cutKey = some (r, c)) (hm : inMatrix s.cfg r c = true) :
    s.dueKey = some (r, c) := by
  simp only [State.dueKey, h, hm, if_true]

/-- The key the engine works on is a key of the matrix: the one STOP cut off, or the cursor's. -/
theorem State.dueKey_spec {s : State} {r c : Idx} (h : s.dueKey = some (r, c)) :
    inMatrix s.cfg r c = true ∧ (s.cutKey = some (r, c) ∨ (s.cutKey = none ∧ s.cursorKey = some (r, c))) := by
  unfold State.dueKey at h
  split at h
  · rename_i k hk
    split at h
    · cases h
      exact ⟨‹_›, .inl hk⟩
    · cases h
  · exact ⟨(State.cursorKey_spec h).1, .inr ⟨‹_›, h⟩⟩

theorem State.active_congr {s t : State} (hb : t.busy = s.busy) (hk : t.cutKey = s.cutKey) : t.active = s.active := by
  simp only [State.active, hb, hk]

theorem State.active_iff {s : State} : s.active = true ↔ s.busy = true ∨ s.cutKey.isSome = true := by
  simp only [State.active, Bool.or_eq_true]

theorem State.active_eq_false {s : State} : s.active = false ↔ s.busy = false ∧ s.cutKey = none := by
  simp only [State.active, Bool.or_eq_false_iff, Option.isSome_eq_false_iff, Option.isNone_iff_eq_none]

end Sys2Proof.Machine
end

