-- ==== Sys2Proof/Laws/Ops.lean ====
section
/-! SUPPORT. One lemma per shared operation that says everything it can do: the micro operations, the key step, the end
of a key step, and the moves of `step`. -/

namespace Sys2Proof.Machine

/-! ### SBRD -/

/-- SBRD latches a word; it is the written word and nothing is drawn, or a free value and one is drawn. -/
theorem State.opSbrd_spec (s : State) (h : Half) (r : Idx) :
    (∃ w, s.snapWord h r = some w ∧ s.opSbrd h r = s.withLatch { s.latch with word := w }) ∨
    (s.snapWord h r = none ∧
      s.opSbrd h r = (s.withLatch { s.latch with word := Config.freeWord s.draws }).withDraws (s.draws + 1)) := by
  unfold State.opSbrd
  cases hw : s.snapWord h r with
  | some w => exact .inl ⟨w, rfl, rfl⟩
  | none => exact .inr ⟨rfl, rfl⟩

/-- SBRD as one update, whichever of its two cases applies. -/
theorem State.opSbrd_update (s : State) (h : Half) (r : Idx) :
    s.opSbrd h r = (s.withLatch { s.latch with word := (s.snapWord h r).getD (Config.freeWord s.draws) }).withDraws
      (if (s.snapWord h r).isSome then s.draws else s.draws + 1) := by
  unfold State.opSbrd
  cases s.snapWord h r <;> rfl

/-! ### DEBUPD -/

/-- DEBUPD on a counter in range. -/
theorem State.opDebupd_inRange {s : State} {r c : Idx} (x : Level) (h : (s.key r c).inRange s.cfg.steady = true) :
    s.opDebupd r c x = (s.setKey r c ((s.key r c).update s.cfg.steady s.cfg.transient x).1).withLatch
      { s.latch with changed := ((s.key r c).update s.cfg.steady s.cfg.transient x).2 } := by
  simp only [State.opDebupd, h, if_true]

/-- DEBUPD on a counter out of range. -/
theorem State.opDebupd_outOfRange {s : State} {r c : Idx} (x : Level) (h : (s.key r c).inRange s.cfg.steady = false) :
    s.opDebupd r c x = s.violate r c := by
  simp [State.opDebupd, h]

/-- An invariant violation, by build mode. -/
theorem State.violate_spec (s : State) (r c : Idx) :
    (s.cfg.buildMode = .defensive ∧ s.violate r c = s.withLatch { s.latch with changed := false }) ∨
    (s.cfg.buildMode = .debug ∧ s.violate r c = (((s.withLatch { s.latch with changed := false }).takeFault
      .invariantViolation).endDispatch).withFaultKey (some (r, c))) := by
  unfold State.violate
  cases hb : s.cfg.buildMode with
  | defensive => exact .inl ⟨rfl, by simp [hb]⟩
  | debug => exact .inr ⟨rfl, by simp [hb]⟩

/-- A Debouncer in the reachable set has its counter in range. -/
theorem Reach.inRange {S T : Nat} {d : Debouncer} (hT : T < S) (h : Reach S T d) : d.inRange S = true := by
  obtain ⟨f, k⟩ := d
  simp only [Debouncer.inRange, Bool.and_eq_true, decide_eq_true_eq]
  cases f <;> simp only [Reach] at h <;> omega

/-! ### ERPUSH -/

/-- ERPUSH appends the record or drops it; what else it writes. -/
theorem State.opErpush_spec (s : State) (r c : Idx) (o : Level) :
    ∃ (take : Bool) (n : Nat),
      s.opErpush r c o = ((s.withLatch { s.latch with taken := take }).withEq
        (if take then s.eq ++ [{ row := r, col := c, output := o }] else s.eq)).withDraws n ∧
      (take = true → s.eq.length < s.cfg.queueCap) ∧
      (s.cfg.relayMayDropEarly = false → n = s.draws ∧ (take = true ↔ s.eq.length < s.cfg.queueCap)) := by
  refine ⟨decide (s.eq.length < s.cfg.queueCap) && !s.earlyDrop,
    if s.cfg.relayMayDropEarly then s.draws + 1 else s.draws, rfl, ?_, ?_⟩
  · intro h
    simp only [Bool.and_eq_true, decide_eq_true_eq] at h
    exact h.1
  · intro h
    simp [State.earlyDrop, h]

/-! ### KEYSTEP -/

/-- A key step whose DEBUPD reports no change is the sample and the update. -/
theorem State.opKeystep_unchanged {s : State} {h : Half} {r c : Idx}
    (hc : ((s.opSbrd h r).opDebupd r c (pinSelect (s.opSbrd h r).cfg (s.opSbrd h r).latch.word r c)).latch.changed
      = false) :
    s.opKeystep h r c = (s.opSbrd h r).opDebupd r c (pinSelect (s.opSbrd h r).cfg (s.opSbrd h r).latch.word r c) := by
  simp [State.opKeystep, hc]

/-- A key step whose DEBUPD reports a change goes on to publish and forward the new output. -/
theorem State.opKeystep_changed {s u : State} {h : Half} {r c : Idx}
    (hu : u = (s.opSbrd h r).opDebupd r c (pinSelect (s.opSbrd h r).cfg (s.opSbrd h r).latch.word r c))
    (hc : u.latch.changed = true) :
    s.opKeystep h r c =
      (((u.opDebout r c).opSswr r c (u.key r c).fsm.out).opErpush r c (u.key r c).fsm.out) := by
  subst hu
  simp [State.opKeystep, hc]

/-! ### The end of a key step -/

/-- What the end of a key step does: nothing when the engine has nothing to do; with a key step that STOP cut off, that
one is over; else the cursor is on the next key, and after the last key the dispatch ends. -/
theorem State.finishKey_spec (s : State) :
    (s.active = false ∧ s.finishKey = s) ∨
    (s.cutKey.isSome = true ∧ s.finishKey = (s.withStage .keyStart).withCutKey none) ∨
    (s.busy = true ∧ s.cutKey = none ∧ (s.cur.next s.cfg).r < s.cfg.rows ∧
      s.finishKey = (s.withStage .keyStart).withCur (s.cur.next s.cfg)) ∨
    (s.busy = true ∧ s.cutKey = none ∧ s.cfg.rows ≤ (s.cur.next s.cfg).r ∧
      s.finishKey = ((s.withStage .keyStart).withCur (s.cur.next s.cfg)).endDispatch) := by
  unfold State.finishKey
  cases hq : s.cutKey with
  | some k => exact .inr (.inl ⟨rfl, by simp⟩)
  | none =>
    cases hb : s.busy with
    | false => exact .inl ⟨State.active_eq_false.2 ⟨hb, hq⟩, by simp⟩
    | true =>
      by_cases hr : (s.cur.next s.cfg).r < s.cfg.rows
      · exact .inr (.inr (.inl ⟨rfl, rfl, hr, by simp [hr]⟩))
      · exact .inr (.inr (.inr ⟨rfl, rfl, Nat.le_of_not_lt hr, by simp [hr]⟩))

/-- Outside `busy`, `stage`, `cutKey` and `cur` the end of a key step writes nothing. -/
theorem State.finishKey_frame (s : State) : OnlyChanges [.busy, .stage, .cutKey, .cur] s s.finishKey := by
  rcases s.finishKey_spec with ⟨_, e⟩ | ⟨_, e⟩ | ⟨_, _, _, e⟩ | ⟨_, _, _, e⟩ <;> rw [e] <;> intro f hf <;>
    cases f <;> first | rfl | simp at hf

/-! ### The moves of a step -/

/-- What one step is: the head of the inbox, or with an empty inbox the engine's turn. -/
theorem step_cases {s : State} {o : Host.Outcome State Fault Refusal} (h : step s = o) :
    (s.inbox = [] ∧ turnKey s = o) ∨
    (∃ rest w i, s.inbox = .port w :: rest ∧ decode w = .ok i ∧ i.opcode.isPort = true ∧
      exec i (s.withInbox rest) = o) ∨
    (∃ rest w, s.inbox = .port w :: rest ∧ o = .next ((s.withInbox rest).refuse .illegalCommand)) ∨
    (∃ rest w i, s.inbox = .bench w :: rest ∧ decode w = .ok i ∧ i.opcode.isPort = false ∧
      exec i (s.withInbox rest) = o) ∨
    (∃ rest w, s.inbox = .bench w :: rest ∧ o = .next ((s.withInbox rest).refuse .illegalCommand)) ∨
    (∃ rest, s.inbox = .engineMicro :: rest ∧ turnMicro (s.withInbox rest) = o) ∨
    (∃ rest, s.inbox = .engineKey :: rest ∧ turnKey (s.withInbox rest) = o) ∨
    (∃ rest, s.inbox = .powerOn :: rest ∧ o = .next (s.withInbox rest).resetPower) := by
  unfold step nextMove at h
  cases hi : s.inbox with
  | nil => rw [hi] at h; exact .inl ⟨rfl, h⟩
  | cons m rest =>
    rw [hi] at h
    cases m with
    | port w =>
      simp only [serve, servePort, decodePort] at h
      cases hd : decode w with
      | error e => simp [hd] at h; exact .inr (.inr (.inl ⟨rest, w, rfl, h.symm⟩))
      | ok i =>
        cases hp : i.opcode.isPort with
        | true => simp [hd, hp] at h; exact .inr (.inl ⟨rest, w, i, rfl, hd, hp, h⟩)
        | false => simp [hd, hp] at h; exact .inr (.inr (.inl ⟨rest, w, rfl, h.symm⟩))
    | bench w =>
      simp only [serve, serveBench, decodeMicro] at h
      cases hd : decode w with
      | error e => simp [hd] at h; exact .inr (.inr (.inr (.inr (.inl ⟨rest, w, rfl, h.symm⟩))))
      | ok i =>
        cases hp : i.opcode.isPort with
        | false => simp [hd, hp] at h; exact .inr (.inr (.inr (.inl ⟨rest, w, i, rfl, hd, hp, h⟩)))
        | true => simp [hd, hp] at h; exact .inr (.inr (.inr (.inr (.inl ⟨rest, w, rfl, h.symm⟩))))
    | engineMicro => exact .inr (.inr (.inr (.inr (.inr (.inl ⟨rest, rfl, h⟩)))))
    | engineKey => exact .inr (.inr (.inr (.inr (.inr (.inr (.inl ⟨rest, rfl, h⟩))))))
    | powerOn => exact .inr (.inr (.inr (.inr (.inr (.inr (.inr ⟨rest, rfl, h.symm⟩))))))

/-- What a micro operation's turn is. -/
theorem turnMicro_cases {s : State} {o : Host.Outcome State Fault Refusal} (h : turnMicro s = o) :
    (s.active = false ∧ o = .next s) ∨ (s.active = true ∧ s.dueKey = none ∧ o = .next s.endDispatch) ∨
    (∃ r c, s.active = true ∧ s.dueKey = some (r, c) ∧
      Outcome.andThen (exec (s.nextMicro r c) s) (State.afterMicro s.stage) = o) := by
  unfold turnMicro at h
  cases hb : s.active with
  | false => exact .inl ⟨rfl, by simpa [hb] using h.symm⟩
  | true =>
    cases hk : s.dueKey with
    | none => exact .inr (.inl ⟨rfl, rfl, by simpa [hb, hk] using h.symm⟩)
    | some k => exact .inr (.inr ⟨k.1, k.2, rfl, rfl, by simpa [hb, hk] using h⟩)

/-- What a key step's turn is. -/
theorem turnKey_cases {s : State} {o : Host.Outcome State Fault Refusal} (h : turnKey s = o) :
    (s.active = true ∧ s.stage = .keyStart ∧ s.dueKey = none ∧ o = .next s.endDispatch) ∨
    (∃ r c, s.active = true ∧ s.stage = .keyStart ∧ s.dueKey = some (r, c) ∧
      o = .next (s.opKeystep s.cur.h r c).finishKey) ∨
    ((s.active = false ∨ s.stage ≠ .keyStart) ∧ turnMicro s = o) := by
  unfold turnKey at h
  by_cases hb : (s.active && s.stage == .keyStart) = true
  · rw [if_pos hb] at h
    simp only [Bool.and_eq_true, beq_iff_eq] at hb
    cases hk : s.dueKey with
    | none => exact .inl ⟨hb.1, hb.2, rfl, by simpa [hk] using h.symm⟩
    | some k =>
      refine .inr (.inl ⟨k.1, k.2, hb.1, hb.2, rfl, ?_⟩)
      have hm := (State.dueKey_spec (r := k.1) (c := k.2) hk).1
      simpa [hk, exec, execKeystep, hm, Outcome.andThen] using h.symm
  · rw [if_neg hb] at h
    refine .inr (.inr ⟨?_, h⟩)
    simp only [Bool.and_eq_true, beq_iff_eq, not_and] at hb
    cases hbb : s.active with
    | false => exact .inl rfl
    | true => exact .inr (hb hbb)

end Sys2Proof.Machine
end

