-- ==== Sys2Proof/Laws/Frames.lean ====
section
/-! SUPPORT. The field lemmas of the shared operations: what INIT's effect, each micro operation, the key step, the end of
a key step and power-on leave in every field they do not write. -/

namespace Sys2Proof.Machine.State

/-! ### `initReady`: the fields INIT leaves -/

@[simp] theorem initReady_cfg (s : State) (pol : Level) : (s.initReady pol).cfg = s.cfg := by
  simp [initReady, initKeys, initSs]
@[simp] theorem initReady_snap (s : State) (pol : Level) : (s.initReady pol).snap = s.snap := by
  simp [initReady, initKeys, initSs]
@[simp] theorem initReady_cur (s : State) (pol : Level) : (s.initReady pol).cur = s.cur := by
  simp [initReady, initKeys, initSs]
@[simp] theorem initReady_faultKey (s : State) (pol : Level) : (s.initReady pol).faultKey = s.faultKey := by
  simp [initReady, initKeys, initSs]
@[simp] theorem initReady_answer (s : State) (pol : Level) : (s.initReady pol).answer = s.answer := by
  simp [initReady, initKeys, initSs]
@[simp] theorem initReady_stage (s : State) (pol : Level) : (s.initReady pol).stage = .keyStart := by
  simp [initReady, initKeys, initSs]
@[simp] theorem initReady_latch (s : State) (pol : Level) : (s.initReady pol).latch = s.latch := by
  simp [initReady, initKeys, initSs]
@[simp] theorem initReady_cutKey (s : State) (pol : Level) : (s.initReady pol).cutKey = none := by
  simp [initReady, initKeys, initSs]
@[simp] theorem initReady_inbox (s : State) (pol : Level) : (s.initReady pol).inbox = s.inbox := by
  simp [initReady, initKeys, initSs]
@[simp] theorem initReady_draws (s : State) (pol : Level) : (s.initReady pol).draws = s.draws := by
  simp [initReady, initKeys, initSs]
@[simp] theorem initReady_busy (s : State) (pol : Level) : (s.initReady pol).busy = false := by
  simp [initReady, initKeys, initSs]
@[simp] theorem initReady_phase (s : State) (pol : Level) : (s.initReady pol).phase = .ready := by
  simp [initReady, initKeys, initSs]
@[simp] theorem initReady_fcode (s : State) (pol : Level) : (s.initReady pol).fcode = 0#4 := by
  simp [initReady, initKeys, initSs]
@[simp] theorem initReady_eq (s : State) (pol : Level) :
    (s.initReady pol).eq = if s.cfg.initClearsRelay || s.phase == .uninit then [] else s.eq := by
  simp [initReady, initKeys, initSs]

/-! ### `opSbrd`: the fields SBRD leaves -/

@[simp] theorem opSbrd_cfg (s : State) (h : Half) (r : Idx) : (s.opSbrd h r).cfg = s.cfg := by
  rw [opSbrd_update]; rfl
@[simp] theorem opSbrd_keys (s : State) (h : Half) (r : Idx) : (s.opSbrd h r).keys = s.keys := by
  rw [opSbrd_update]; rfl
@[simp] theorem opSbrd_ss (s : State) (h : Half) (r : Idx) : (s.opSbrd h r).ss = s.ss := by
  rw [opSbrd_update]; rfl
@[simp] theorem opSbrd_snap (s : State) (h : Half) (r : Idx) : (s.opSbrd h r).snap = s.snap := by
  rw [opSbrd_update]; rfl
@[simp] theorem opSbrd_eq (s : State) (h : Half) (r : Idx) : (s.opSbrd h r).eq = s.eq := by
  rw [opSbrd_update]; rfl
@[simp] theorem opSbrd_busy (s : State) (h : Half) (r : Idx) : (s.opSbrd h r).busy = s.busy := by
  rw [opSbrd_update]; rfl
@[simp] theorem opSbrd_cur (s : State) (h : Half) (r : Idx) : (s.opSbrd h r).cur = s.cur := by
  rw [opSbrd_update]; rfl
@[simp] theorem opSbrd_phase (s : State) (h : Half) (r : Idx) : (s.opSbrd h r).phase = s.phase := by
  rw [opSbrd_update]; rfl
@[simp] theorem opSbrd_fcode (s : State) (h : Half) (r : Idx) : (s.opSbrd h r).fcode = s.fcode := by
  rw [opSbrd_update]; rfl
@[simp] theorem opSbrd_faultKey (s : State) (h : Half) (r : Idx) : (s.opSbrd h r).faultKey = s.faultKey := by
  rw [opSbrd_update]; rfl
@[simp] theorem opSbrd_answer (s : State) (h : Half) (r : Idx) : (s.opSbrd h r).answer = s.answer := by
  rw [opSbrd_update]; rfl
@[simp] theorem opSbrd_stage (s : State) (h : Half) (r : Idx) : (s.opSbrd h r).stage = s.stage := by
  rw [opSbrd_update]; rfl
@[simp] theorem opSbrd_cutKey (s : State) (h : Half) (r : Idx) : (s.opSbrd h r).cutKey = s.cutKey := by
  rw [opSbrd_update]; rfl
@[simp] theorem opSbrd_inbox (s : State) (h : Half) (r : Idx) : (s.opSbrd h r).inbox = s.inbox := by
  rw [opSbrd_update]; rfl
@[simp] theorem opSbrd_changed (s : State) (h : Half) (r : Idx) : (s.opSbrd h r).latch.changed = s.latch.changed := by
  rw [opSbrd_update]; rfl
@[simp] theorem opSbrd_output (s : State) (h : Half) (r : Idx) : (s.opSbrd h r).latch.output = s.latch.output := by
  rw [opSbrd_update]; rfl
@[simp] theorem opDebout_output (s : State) (r c : Idx) : (s.opDebout r c).latch.output = (s.key r c).fsm.out := rfl
@[simp] theorem opDebout_changed (s : State) (r c : Idx) : (s.opDebout r c).latch.changed = s.latch.changed := rfl

/-! ### `opErpush`: the fields ERPUSH leaves -/

@[simp] theorem opErpush_cfg (s : State) (r c : Idx) (o : Level) : (s.opErpush r c o).cfg = s.cfg := rfl
@[simp] theorem opErpush_keys (s : State) (r c : Idx) (o : Level) : (s.opErpush r c o).keys = s.keys := rfl
@[simp] theorem opErpush_ss (s : State) (r c : Idx) (o : Level) : (s.opErpush r c o).ss = s.ss := rfl
@[simp] theorem opErpush_snap (s : State) (r c : Idx) (o : Level) : (s.opErpush r c o).snap = s.snap := rfl
@[simp] theorem opErpush_busy (s : State) (r c : Idx) (o : Level) : (s.opErpush r c o).busy = s.busy := rfl
@[simp] theorem opErpush_cur (s : State) (r c : Idx) (o : Level) : (s.opErpush r c o).cur = s.cur := rfl
@[simp] theorem opErpush_phase (s : State) (r c : Idx) (o : Level) : (s.opErpush r c o).phase = s.phase := rfl
@[simp] theorem opErpush_fcode (s : State) (r c : Idx) (o : Level) : (s.opErpush r c o).fcode = s.fcode := rfl
@[simp] theorem opErpush_faultKey (s : State) (r c : Idx) (o : Level) : (s.opErpush r c o).faultKey = s.faultKey :=
  rfl
@[simp] theorem opErpush_answer (s : State) (r c : Idx) (o : Level) : (s.opErpush r c o).answer = s.answer := rfl
@[simp] theorem opErpush_stage (s : State) (r c : Idx) (o : Level) : (s.opErpush r c o).stage = s.stage := rfl
@[simp] theorem opErpush_cutKey (s : State) (r c : Idx) (o : Level) : (s.opErpush r c o).cutKey = s.cutKey := rfl
@[simp] theorem opErpush_inbox (s : State) (r c : Idx) (o : Level) : (s.opErpush r c o).inbox = s.inbox := rfl
@[simp] theorem opErpush_changed (s : State) (r c : Idx) (o : Level) :
    (s.opErpush r c o).latch.changed = s.latch.changed := rfl
@[simp] theorem opErpush_output (s : State) (r c : Idx) (o : Level) :
    (s.opErpush r c o).latch.output = s.latch.output := rfl

/-! ### `violate`: the fields an invariant violation leaves -/

@[simp] theorem violate_cfg (s : State) (r c : Idx) : (s.violate r c).cfg = s.cfg := by
  rcases violate_spec s r c with ⟨_, e⟩ | ⟨_, e⟩ <;> rw [e] <;> simp
@[simp] theorem violate_keys (s : State) (r c : Idx) : (s.violate r c).keys = s.keys := by
  rcases violate_spec s r c with ⟨_, e⟩ | ⟨_, e⟩ <;> rw [e] <;> simp
@[simp] theorem violate_ss (s : State) (r c : Idx) : (s.violate r c).ss = s.ss := by
  rcases violate_spec s r c with ⟨_, e⟩ | ⟨_, e⟩ <;> rw [e] <;> simp
@[simp] theorem violate_snap (s : State) (r c : Idx) : (s.violate r c).snap = s.snap := by
  rcases violate_spec s r c with ⟨_, e⟩ | ⟨_, e⟩ <;> rw [e] <;> simp
@[simp] theorem violate_eq (s : State) (r c : Idx) : (s.violate r c).eq = s.eq := by
  rcases violate_spec s r c with ⟨_, e⟩ | ⟨_, e⟩ <;> rw [e] <;> simp
@[simp] theorem violate_cur (s : State) (r c : Idx) : (s.violate r c).cur = s.cur := by
  rcases violate_spec s r c with ⟨_, e⟩ | ⟨_, e⟩ <;> rw [e] <;> simp
@[simp] theorem violate_answer (s : State) (r c : Idx) : (s.violate r c).answer = s.answer := by
  rcases violate_spec s r c with ⟨_, e⟩ | ⟨_, e⟩ <;> rw [e] <;> simp
@[simp] theorem violate_inbox (s : State) (r c : Idx) : (s.violate r c).inbox = s.inbox := by
  rcases violate_spec s r c with ⟨_, e⟩ | ⟨_, e⟩ <;> rw [e] <;> simp
@[simp] theorem violate_draws (s : State) (r c : Idx) : (s.violate r c).draws = s.draws := by
  rcases violate_spec s r c with ⟨_, e⟩ | ⟨_, e⟩ <;> rw [e] <;> simp
@[simp] theorem violate_changed (s : State) (r c : Idx) : (s.violate r c).latch.changed = false := by
  rcases violate_spec s r c with ⟨_, e⟩ | ⟨_, e⟩ <;> rw [e] <;> simp

/-! ### `opDebupd`: the fields DEBUPD leaves -/

@[simp] theorem opDebupd_cfg (s : State) (r c : Idx) (x : Level) : (s.opDebupd r c x).cfg = s.cfg := by
  unfold opDebupd; split <;> simp
@[simp] theorem opDebupd_ss (s : State) (r c : Idx) (x : Level) : (s.opDebupd r c x).ss = s.ss := by
  unfold opDebupd; split <;> simp
@[simp] theorem opDebupd_snap (s : State) (r c : Idx) (x : Level) : (s.opDebupd r c x).snap = s.snap := by
  unfold opDebupd; split <;> simp
@[simp] theorem opDebupd_eq (s : State) (r c : Idx) (x : Level) : (s.opDebupd r c x).eq = s.eq := by
  unfold opDebupd; split <;> simp
@[simp] theorem opDebupd_cur (s : State) (r c : Idx) (x : Level) : (s.opDebupd r c x).cur = s.cur := by
  unfold opDebupd; split <;> simp
@[simp] theorem opDebupd_answer (s : State) (r c : Idx) (x : Level) : (s.opDebupd r c x).answer = s.answer := by
  unfold opDebupd; split <;> simp
@[simp] theorem opDebupd_inbox (s : State) (r c : Idx) (x : Level) : (s.opDebupd r c x).inbox = s.inbox := by
  unfold opDebupd; split <;> simp
@[simp] theorem opDebupd_draws (s : State) (r c : Idx) (x : Level) : (s.opDebupd r c x).draws = s.draws := by
  unfold opDebupd; split <;> simp

/-! ### `opKeystep`: the fields KEYSTEP leaves -/

@[simp] theorem opKeystep_cfg (s : State) (h : Half) (r c : Idx) : (s.opKeystep h r c).cfg = s.cfg := by
  simp only [opKeystep]; split <;> simp
@[simp] theorem opKeystep_snap (s : State) (h : Half) (r c : Idx) : (s.opKeystep h r c).snap = s.snap := by
  simp only [opKeystep]; split <;> simp
@[simp] theorem opKeystep_cur (s : State) (h : Half) (r c : Idx) : (s.opKeystep h r c).cur = s.cur := by
  simp only [opKeystep]; split <;> simp
@[simp] theorem opKeystep_answer (s : State) (h : Half) (r c : Idx) : (s.opKeystep h r c).answer = s.answer := by
  simp only [opKeystep]; split <;> simp
@[simp] theorem opKeystep_inbox (s : State) (h : Half) (r c : Idx) : (s.opKeystep h r c).inbox = s.inbox := by
  simp only [opKeystep]; split <;> simp

/-! ### `finishKey`: the fields the end of a key step leaves -/

@[simp] theorem finishKey_cfg (s : State) : (s.finishKey).cfg = s.cfg := s.finishKey_frame .cfg (by simp)
@[simp] theorem finishKey_keys (s : State) : (s.finishKey).keys = s.keys := s.finishKey_frame .keys (by simp)
@[simp] theorem finishKey_ss (s : State) : (s.finishKey).ss = s.ss := s.finishKey_frame .ss (by simp)
@[simp] theorem finishKey_snap (s : State) : (s.finishKey).snap = s.snap := s.finishKey_frame .snap (by simp)
@[simp] theorem finishKey_eq (s : State) : (s.finishKey).eq = s.eq := s.finishKey_frame .eq (by simp)
@[simp] theorem finishKey_phase (s : State) : (s.finishKey).phase = s.phase := s.finishKey_frame .phase (by simp)
@[simp] theorem finishKey_fcode (s : State) : (s.finishKey).fcode = s.fcode := s.finishKey_frame .fcode (by simp)
@[simp] theorem finishKey_faultKey (s : State) : (s.finishKey).faultKey = s.faultKey :=
  s.finishKey_frame .faultKey (by simp)
@[simp] theorem finishKey_answer (s : State) : (s.finishKey).answer = s.answer :=
  s.finishKey_frame .answer (by simp)
@[simp] theorem finishKey_latch (s : State) : (s.finishKey).latch = s.latch := s.finishKey_frame .latch (by simp)
@[simp] theorem finishKey_inbox (s : State) : (s.finishKey).inbox = s.inbox := s.finishKey_frame .inbox (by simp)
@[simp] theorem finishKey_draws (s : State) : (s.finishKey).draws = s.draws := s.finishKey_frame .draws (by simp)

/-! ### `resetPower`: the fields power-on leaves -/

@[simp] theorem resetPower_cfg (s : State) : (s.resetPower).cfg = s.cfg := rfl
@[simp] theorem resetPower_inbox (s : State) : (s.resetPower).inbox = s.inbox := rfl
@[simp] theorem resetPower_draws (s : State) : (s.resetPower).draws = s.draws := rfl

end Sys2Proof.Machine.State
end

