-- ==== Sys2Proof/Laws/Exec.lean ====
section
/-! SUPPORT. Every next state an operation can give, and every next state a step can give, each said once. -/

namespace Sys2Proof.Machine

/-- Every next state of an operation: an answer alone (a read, an empty queue, a STOP with nothing to end, a refusal), or
the effect of that operation under the conditions it has passed. -/
theorem exec_cases {i : Instr} {s t : State} (h : exec i s = .next t) :
    (∃ a, t = s.withAnswer a) ∨
    (∃ pol, i = .init pol ∧ s.phase ≠ .failed ∧ s.busy = false ∧
      ((configValid s.cfg = true ∧ t = (s.initReady pol).doneWith 0#16) ∨
       (configValid s.cfg = false ∧
        t = (s.takeFault (configError s.cfg)).doneWith ((configError s.cfg).num.setWidth 16)))) ∨
    (∃ k r w, i = .sbwr k r w ∧ inRow s.cfg r = true ∧ (s.busy = true → s.cur.h ≠ k) ∧ t = (s.setSnap k r w).done) ∨
    (∃ k, i = .notify k ∧ s.phase = .ready ∧ s.busy = false ∧ t = (s.beginDispatch k).done) ∨
    (∃ e rest, i = .erpop ∧ s.eq = e :: rest ∧ t = (s.withEq rest).doneWith e.word) ∨
    (i = .stop ∧ s.cfg.stopAbortsDispatch = true ∧ s.busy = true ∧
      t = s.abortDispatch.done) ∨
    (∃ r c x, i = .debupd r c x ∧ inMatrix s.cfg r c = true ∧ t = s.opDebupd r c x) ∨
    (∃ r c, i = .debout r c ∧ inMatrix s.cfg r c = true ∧ t = s.opDebout r c) ∨
    (∃ r c b, i = .sswr r c b ∧ inMatrix s.cfg r c = true ∧ t = s.opSswr r c b) ∨
    (∃ r c o, i = .erpush r c o ∧ inMatrix s.cfg r c = true ∧ t = s.opErpush r c o) ∨
    (∃ k r, i = .sbrd k r ∧ inRow s.cfg r = true ∧ t = s.opSbrd k r) ∨
    (∃ k r c, i = .keystep k r c ∧ inMatrix s.cfg r c = true ∧ t = s.opKeystep k r c) := by
  cases i with
  | init pol =>
    simp only [exec, execInit] at h
    split at h
    · cases h; exact .inl ⟨_, rfl⟩
    · rename_i hh
      simp only [Bool.or_eq_true, decide_eq_true_eq, not_or, Bool.not_eq_true] at hh
      refine .inr (.inl ⟨pol, rfl, hh.1, hh.2, ?_⟩)
      cases hc : configValid s.cfg <;> simp only [hc, if_true, Bool.false_eq_true, if_false] at h <;> cases h
      · exact .inr ⟨rfl, rfl⟩
      · exact .inl ⟨rfl, by simp⟩
  | sbwr k r w =>
    simp only [exec, execSbwr] at h
    split at h
    · rename_i h1
      split at h
      · cases h
      · rename_i h2
        cases h
        exact .inr (.inr (.inl ⟨_, _, _, rfl, h1, fun hb => by simpa [hb] using h2, rfl⟩))
    · cases h; exact .inl ⟨_, rfl⟩
  | notify k =>
    simp only [exec, execNotify] at h
    split at h
    · rename_i h1
      split at h
      · cases h
      · rename_i h2
        cases h
        exact .inr (.inr (.inr (.inl ⟨_, rfl, h1, by simpa using h2, rfl⟩)))
    · cases h; exact .inl ⟨_, rfl⟩
  | ssrd r c =>
    simp only [exec, execSsrd] at h
    cases h
    left
    (repeat' split) <;> exact ⟨_, rfl⟩
  | ssrdrow r =>
    simp only [exec, execSsrdrow] at h
    cases h
    left
    (repeat' split) <;> exact ⟨_, rfl⟩
  | erpop =>
    simp only [exec, execErpop] at h
    cases h
    split
    · unfold State.popEvent
      split
      · exact .inl ⟨_, rfl⟩
      · exact .inr (.inr (.inr (.inr (.inl ⟨_, _, rfl, ‹_›, rfl⟩))))
    · exact .inl ⟨_, rfl⟩
  | stop =>
    simp only [exec, execStop] at h
    cases h
    split
    · rename_i hh
      simp only [Bool.and_eq_true] at hh
      exact .inr (.inr (.inr (.inr (.inr (.inl ⟨rfl, hh.1, hh.2, rfl⟩)))))
    · exact .inl ⟨_, rfl⟩
  | debupd r c x =>
    simp only [exec, execDebupd] at h
    cases h
    split
    · iterate 6 right
      exact .inl ⟨_, _, _, rfl, ‹_›, rfl⟩
    · exact .inl ⟨_, rfl⟩
  | debout r c =>
    simp only [exec, execDebout] at h
    cases h
    split
    · iterate 7 right
      exact .inl ⟨_, _, rfl, ‹_›, rfl⟩
    · exact .inl ⟨_, rfl⟩
  | sswr r c b =>
    simp only [exec, execSswr] at h
    cases h
    split
    · iterate 8 right
      exact .inl ⟨_, _, _, rfl, ‹_›, rfl⟩
    · exact .inl ⟨_, rfl⟩
  | erpush r c o =>
    simp only [exec, execErpush] at h
    cases h
    split
    · iterate 9 right
      exact .inl ⟨_, _, _, rfl, ‹_›, rfl⟩
    · exact .inl ⟨_, rfl⟩
  | sbrd k r =>
    simp only [exec, execSbrd] at h
    cases h
    split
    · iterate 10 right
      exact .inl ⟨_, _, rfl, ‹_›, rfl⟩
    · exact .inl ⟨_, rfl⟩
  | keystep k r c =>
    simp only [exec, execKeystep] at h
    cases h
    split
    · iterate 11 right
      exact ⟨_, _, _, rfl, ‹_›, rfl⟩
    · exact .inl ⟨_, rfl⟩

/-- An engine's turn that gives a next state: nothing to do, a cursor off the matrix, a whole key step, or one micro
operation. -/
def EngineMoved (s t : State) : Prop :=
  (t = s ∧ s.active = false) ∨ (t = s.endDispatch ∧ s.active = true ∧ s.dueKey = none) ∨
  (∃ r c, s.active = true ∧ s.stage = .keyStart ∧ s.dueKey = some (r, c) ∧
    t = (s.opKeystep s.cur.h r c).finishKey) ∨
  (∃ r c u, s.active = true ∧ s.dueKey = some (r, c) ∧ exec (s.nextMicro r c) s = .next u ∧
    t = State.afterMicro s.stage u)

theorem turnMicro_moved {s t : State} (h : turnMicro s = .next t) : EngineMoved s t := by
  rcases turnMicro_cases h with ⟨a, e⟩ | ⟨a, b, e⟩ | ⟨r, c, a, b, e⟩
  · cases e; exact .inl ⟨rfl, a⟩
  · cases e; exact .inr (.inl ⟨rfl, a, b⟩)
  · cases he : exec (s.nextMicro r c) s <;> rw [he] at e <;> cases e
    exact .inr (.inr (.inr ⟨r, c, _, a, b, he, rfl⟩))

theorem turnKey_moved {s t : State} (h : turnKey s = .next t) : EngineMoved s t := by
  rcases turnKey_cases h with ⟨a, _, b, e⟩ | ⟨r, c, a, b, d, e⟩ | ⟨_, e⟩
  · cases e; exact .inr (.inl ⟨rfl, a, b⟩)
  · cases e; exact .inr (.inr (.inl ⟨r, c, a, b, d, rfl⟩))
  · exact turnMicro_moved e

/-- Every next state of a step, from the state u in which the head of the inbox has been taken. -/
theorem step_moves {s t : State} (h : step s = .next t) :
    ∃ u : State, ((s.inbox = [] ∧ u = s) ∨ ∃ m rest, s.inbox = m :: rest ∧ u = s.withInbox rest) ∧
      ((∃ w rest i, s.inbox = .port w :: rest ∧ decode w = .ok i ∧ i.opcode.isPort = true ∧ exec i u = .next t) ∨
       (∃ w rest i, s.inbox = .bench w :: rest ∧ decode w = .ok i ∧ i.opcode.isPort = false ∧ exec i u = .next t) ∨
       t = u.refuse .illegalCommand ∨ EngineMoved u t ∨ (∃ rest, s.inbox = .powerOn :: rest ∧ t = u.resetPower)) := by
  rcases step_cases h with ⟨hi, e⟩ | ⟨rest, w, i, hi, hd, hp, e⟩ | ⟨rest, w, hi, e⟩ | ⟨rest, w, i, hi, hd, hp, e⟩ |
    ⟨rest, w, hi, e⟩ | ⟨rest, hi, e⟩ | ⟨rest, hi, e⟩ | ⟨rest, hi, e⟩
  · exact ⟨s, .inl ⟨hi, rfl⟩, .inr (.inr (.inr (.inl (turnKey_moved e))))⟩
  · exact ⟨_, .inr ⟨_, _, hi, rfl⟩, .inl ⟨w, rest, i, hi, hd, hp, e⟩⟩
  · cases e; exact ⟨_, .inr ⟨_, _, hi, rfl⟩, .inr (.inr (.inl rfl))⟩
  · exact ⟨_, .inr ⟨_, _, hi, rfl⟩, .inr (.inl ⟨w, rest, i, hi, hd, hp, e⟩)⟩
  · cases e; exact ⟨_, .inr ⟨_, _, hi, rfl⟩, .inr (.inr (.inl rfl))⟩
  · exact ⟨_, .inr ⟨_, _, hi, rfl⟩, .inr (.inr (.inr (.inl (turnMicro_moved e))))⟩
  · exact ⟨_, .inr ⟨_, _, hi, rfl⟩, .inr (.inr (.inr (.inl (turnKey_moved e))))⟩
  · cases e; exact ⟨_, .inr ⟨_, _, hi, rfl⟩, .inr (.inr (.inr (.inr ⟨rest, hi, rfl⟩)))⟩

/-! ### Runs of several steps -/

@[simp] theorem runSteps_zero (s : State) : runSteps 0 s = .next s := rfl

/-- A run of n + 1 steps whose first step completes. -/
theorem runSteps_next {n : Nat} {s t : State} (h : step s = .next t) : runSteps (n + 1) s = runSteps n t := by
  change Host.Core.run Sys2Proof.core (n + 1) s = Host.Core.run Sys2Proof.core n t
  have h' : Sys2Proof.core.step s = .next t := h
  simp only [Host.Core.run, h']

end Sys2Proof.Machine
end

