-- ==== Sys2Proof/Laws/Fields.lean ====
section
/-! SUPPORT. The command word and its fields: packing and unpacking are inverse to each other. -/

namespace Sys2Proof

theorem Fields.pack_unpack (w : CmdWord) : (Fields.unpack w).pack = w := by
  apply BitVec.eq_of_getLsbD_eq
  intro i hi
  simp only [Fields.pack, Fields.unpack, BitVec.getLsbD_extractLsb', BitVec.getLsbD_append]
  interval_cases i <;> simp

theorem Fields.unpack_pack (f : Fields) : Fields.unpack f.pack = f := by
  obtain ⟨op, z, h, row, col, data⟩ := f
  simp only [Fields.unpack, Fields.pack, Fields.mk.injEq]
  refine ⟨?_, ?_, ?_, ?_, ?_, ?_⟩ <;>
    · apply BitVec.eq_of_getLsbD_eq
      intro i hi
      simp only [BitVec.getLsbD_extractLsb', BitVec.getLsbD_append]
      interval_cases i <;> simp

theorem Word.ofLevel_bit (b : Level) : (Word.ofLevel b).getLsbD 0 = b := by cases b <;> rfl

theorem Word.ofLevel_rest (b : Level) : (Word.ofLevel b).extractLsb' 1 15 = 0#15 := by cases b <;> rfl

end Sys2Proof
end

