-- ==== Sys2Proof/Laws/PerInstr.lean ====
section
/-! SUPPORT. Statements made per instruction.  RowForm: the encoded word of an operation names that operation's OP and
has every must-be-zero bit of its row clear (30_encoding.md R66, R71). -/

namespace Sys2Proof.Laws.RowForm

/-- The encoded word of the instruction has its operation's OP and its must-be-zero bits clear. -/
def Statement (i : Instr) : Prop :=
  Opcode.ofCode (Fields.unpack (encode i)).op = some i.opcode ∧ i.opcode.zerosOk (Fields.unpack (encode i)) = true

/-- The two facts of RowForm, read on the fields themselves. -/
theorem of_fields {i : Instr} (h1 : Opcode.ofCode i.fields.op = some i.opcode)
    (h2 : i.opcode.zerosOk i.fields = true) : Statement i := by
  simp only [Statement, encode, Fields.unpack_pack]
  exact ⟨h1, h2⟩

/-- The must-be-zero check of an operation that uses ROW, COL and one bit of DATA. -/
theorem zerosOk_bit {o : Opcode} {f : Fields} (hz : f.z = 0#3) (hh : f.h = 0#1) (hu : o.usesH = false)
    (hr : o.usesRow = true) (hc : o.usesCol = true) (hd : o.dataUse = .bit) (b : Level) (hb : f.data = Word.ofLevel b) :
    o.zerosOk f = true := by
  simp [Opcode.zerosOk, hz, hh, hu, hr, hc, hd, hb, Word.ofLevel_rest]

theorem init (pol : Level) : Statement (.init pol) := of_fields rfl (by cases pol <;> rfl)
theorem sbwr (h : Half) (r : Idx) (w : Word) : Statement (.sbwr h r w) := of_fields rfl rfl
theorem notify (h : Half) : Statement (.notify h) := of_fields rfl rfl
theorem ssrd (r c : Idx) : Statement (.ssrd r c) := of_fields rfl rfl
theorem ssrdrow (r : Idx) : Statement (.ssrdrow r) := of_fields rfl rfl
theorem erpop : Statement .erpop := of_fields rfl rfl
theorem stop : Statement .stop := of_fields rfl rfl
theorem debupd (r c : Idx) (b : Level) : Statement (.debupd r c b) :=
  of_fields rfl (zerosOk_bit rfl rfl rfl rfl rfl rfl b rfl)
theorem debout (r c : Idx) : Statement (.debout r c) := of_fields rfl rfl
theorem sswr (r c : Idx) (b : Level) : Statement (.sswr r c b) :=
  of_fields rfl (zerosOk_bit rfl rfl rfl rfl rfl rfl b rfl)
theorem erpush (r c : Idx) (o : Level) : Statement (.erpush r c o) :=
  of_fields rfl (zerosOk_bit rfl rfl rfl rfl rfl rfl o rfl)
theorem sbrd (h : Half) (r : Idx) : Statement (.sbrd h r) := of_fields rfl rfl
theorem keystep (h : Half) (r c : Idx) : Statement (.keystep h r c) := of_fields rfl rfl

end Sys2Proof.Laws.RowForm
end

