-- ==== Sys2Proof/Tests/Slice0.lean ====
section
/-! SUPPORT. Tests with results taken from spec/95_test_vectors.md, a smoke test of each well-formedness check, and for
every obligation that has hypotheses a witness that meets them together. -/

open Sys2Proof Sys2Proof.Machine

namespace Sys2Proof.Tests

/-! ### Small states -/

/-- A pin map from its rows; entries not given are 0. -/
def pins (l : List (List Nat)) : Vector (Vector Nat 16) 16 :=
  Vector.ofFn fun r => Vector.ofFn fun c => (l.getD r.val []).getD c.val 0

/-- The configuration of program P1: one key, STEADY 4, TRANSIENT 2, four event records. -/
def one : Config := Config.withDefaults 1 1 4 2 4 (pins [[0]])

/-- Two rows of three columns, STEADY 4, TRANSIENT 2 (vector L-2). -/
def six : Config := Config.withDefaults 2 3 4 2 4 (pins [[0, 1, 2], [0, 1, 2]])

/-- `one` with TRANSIENT equal to STEADY (program P5 part b). -/
def bad : Config := Config.withDefaults 1 1 4 4 4 (pins [[0]])

/-- The state after a successful INIT. -/
def started (P : Config) (pol : Level) : State := (State.powerOn P).initReady pol

/-- Key (0,0) of `one` one sample before its flip, with a word that samples Hi in half 0 (41_keymatrix.md R105). -/
def primed : State := ((started one false).setKey 0 0 { fsm := .steadyLo, cnt := -3 }).setSnap 0 0 0x0001#16

/-- `primed` with a dispatch of half 0 accepted. -/
def running : State := primed.beginDispatch 0

/-- `running` inside the key step: DEBUPD and DEBOUT done, SSWR to come. -/
def publishing : State :=
  ((running.setKey 0 0 { fsm := .transientLoHi, cnt := 0 }).withStage .publish).withLatch
    { word := 0x0001#16, changed := true, output := true, taken := false }

/-- `publishing` with SSWR done, ERPUSH to come. -/
def forwarding : State := (publishing.setSsBit 0 0 true).withStage .forward

/-- Key (0,0) with its counter out of range. -/
def broken : State := (started one false).setKey 0 0 { fsm := .steadyLo, cnt := 5 }

/-- The same state in a defensive build. -/
def defensive (s : State) : State := { s with cfg := { s.cfg with buildMode := .defensive } }

/-- The same state with STOP_ABORTS_DISPATCH. -/
def aborting (s : State) : State := { s with cfg := { s.cfg with stopAbortsDispatch := true } }

/-- `publishing` after a STOP that cut the dispatch short: its key step is still to be ended. -/
def stopped : State := (aborting publishing).abortDispatch

/-- The same state with RELAY_MAY_DROP_EARLY. -/
def dropping (s : State) : State := { s with cfg := { s.cfg with relayMayDropEarly := true } }

/-- The state with the event words of these keys in the queue. -/
def queued (s : State) (n : Nat) : State := s.withEq (List.replicate n { row := 0, col := 0, output := true })

/-- `Failed` after a configuration error. -/
def failed : State := (State.powerOn bad).takeFault .configThresholdOrder

/-- Something read from the next state of an outcome. -/
def after {α : Type} (o : Host.Outcome State Fault Refusal) (f : State → α) : Option α :=
  match o with
  | .next t => some (f t)
  | .fault _ => none
  | .refused _ => none

/-- The fault of an outcome. -/
def faultOf (o : Host.Outcome State Fault Refusal) : Option Fault :=
  match o with
  | .next _ => none
  | .fault f => some f
  | .refused _ => none

/-- The status and data of the answer of an outcome. -/
def answered (o : Host.Outcome State Fault Refusal) : Option (BitVec 4 × Option Word) :=
  match after o State.answer with
  | some (some a) => some (a.status, a.data)
  | _ => none

/-! ### Decoding, from vectors E-1 and E-2: the fields of each word are written out, OP Z H ROW COL DATA -/

theorem test_decode_init : decode 0b0001000000000000_0000000000000001#32 = .ok (.init true) := by decide
theorem test_decode_sbwr : decode 0b0010000111110000_1111111111111111#32 = .ok (.sbwr 1 15 0xFFFF#16) := by decide
theorem test_decode_notify : decode 0b0011000100000000_0000000000000000#32 = .ok (.notify 1) := by decide
theorem test_decode_ssrd : decode 0b0100000000100101_0000000000000000#32 = .ok (.ssrd 2 5) := by decide
theorem test_decode_ssrdrow : decode 0b0101000011110000_0000000000000000#32 = .ok (.ssrdrow 15) := by decide
theorem test_decode_erpop : decode 0b0110000000000000_0000000000000000#32 = .ok .erpop := by decide
theorem test_decode_stop : decode 0b0111000000000000_0000000000000000#32 = .ok .stop := by decide
theorem test_decode_debupd : decode 0b1001000011111111_0000000000000001#32 = .ok (.debupd 15 15 true) := by decide
theorem test_decode_debout : decode 0b1010000000110100_0000000000000000#32 = .ok (.debout 3 4) := by decide
theorem test_decode_sswr : decode 0b1011000000100000_0000000000000001#32 = .ok (.sswr 2 0 true) := by decide
theorem test_decode_erpush : decode 0b1100000000100101_0000000000000001#32 = .ok (.erpush 2 5 true) := by decide
theorem test_decode_sbrd : decode 0b1101000100100000_0000000000000000#32 = .ok (.sbrd 1 2) := by decide
theorem test_decode_keystep : decode 0b1110000111111111_0000000000000000#32 = .ok (.keystep 1 15 15) := by decide

theorem test_decode_reserved :
    (decode 0x00000000#32, decode 0x80000000#32, decode 0xF0000000#32, decode 0xFFFFFFFF#32) =
      (.error (.reservedOp 0x0#4), .error (.reservedOp 0x8#4), .error (.reservedOp 0xF#4), .error (.reservedOp 0xF#4)) := by
  decide

theorem test_decode_must_be_zero :
    (decode 0x21310021#32, decode 0x22000000#32, decode 0x30000001#32, decode 0x10000002#32, decode 0x60010000#32) =
      (.error (.mustBeZero .sbwr), .error (.mustBeZero .sbwr), .error (.mustBeZero .notify), .error (.mustBeZero .init),
       .error (.mustBeZero .erpop)) := by
  decide

theorem test_decode_micro_at_port : decodePort 0x90000001#32 = .error (.microAtPort .debupd) := by decide

theorem test_table_word : (decodeTableWord 32 0x21300021, decodeTableWord 32 0) = (some (.sbwr 1 3 0x0021#16), none) := by
  decide

theorem test_encode : (encode (.sbwr 1 3 0x0021#16), encode (.keystep 1 15 15), encode (.init false)) =
    (0x21300021#32, 0xE1FF0000#32, 0x10000000#32) := by decide

/-- The next step runs exactly the word placed, and nothing else of reset has changed. -/
theorem test_fetch_runs_word :
    step (State.reset.withFetchWord 32 0x10000000) = exec (.init false) State.reset ∧
    step (State.reset.withFetchWord 32 0x90FF0001) = exec (.debupd 15 15 true) State.reset := ⟨rfl, rfl⟩

/-! ### Well-formedness: each check refuses an ill-formed term and passes a well-formed one -/

theorem test_rowOk_refuses : ((Instr.sbwr 0 1 0#16).rowOk one, (Instr.sbwr 0 0 0#16).rowOk one) = (false, true) := by decide
theorem test_colOk_refuses : ((Instr.ssrd 0 1).colOk one, (Instr.ssrd 0 0).colOk one) = (false, true) := by decide
theorem test_wellFormed_refuses :
    ((Instr.keystep 0 2 0).wellFormed six, (Instr.keystep 0 0 3).wellFormed six, (Instr.keystep 0 1 2).wellFormed six,
     Instr.erpop.wellFormed bad) = (false, false, true, true) := by decide

/-! ### Encodings of state, vectors E-3 and ER-2 -/

theorem test_counter_register :
    (cntRegister 8 (-127), cntRegister 8 (-4), cntRegister 8 (-1), cntRegister 8 4, cntRegister 8 127) =
      (0x81#8, 0xFC#8, 0xFF#8, 0x04#8, 0x7F#8) := by decide

theorem test_event_words :
    (Event.word ⟨2, 5, true⟩, Event.word ⟨15, 15, true⟩, Event.word ⟨15, 15, false⟩, Event.word ⟨1, 1, true⟩) =
      (0x8125#16, 0x81FF#16, 0x80FF#16, 0x8111#16) := by decide

/-! ### The Debouncer -/

/-- Scenario A: the flip at the second sample, the confirmation four samples later. -/
theorem test_scenario_a :
    ((Debouncer.initial 4 false).changes 4 2 (List.replicate 6 true),
     (Debouncer.initial 4 false).feed 4 2 (List.replicate 6 true)) =
      ([false, true, false, false, false, false], ⟨.steadyHi, 4⟩) := by decide

/-- Scenario B. -/
theorem test_scenario_b :
    ((Debouncer.initial 4 true).changes 4 2 (List.replicate 6 false),
     (Debouncer.initial 4 true).feed 4 2 (List.replicate 6 false)) =
      ([false, true, false, false, false, false], ⟨.steadyLo, -4⟩) := by decide

/-- D-2: a reversal is a second change back to the prior output. -/
theorem test_reversal :
    (Debouncer.initial 4 false).changes 4 2 [true, true, false, false, false, false] =
      [false, true, false, false, false, true] := by decide

/-- D-11: the widest counter of the default register saturates, then flips. -/
theorem test_debupd_widest :
    (Debouncer.update 127 1 ⟨.steadyHi, 127⟩ true, Debouncer.update 127 1 ⟨.steadyHi, 127⟩ false) =
      ((⟨.steadyHi, 127⟩, false), (⟨.transientHiLo, 0⟩, true)) := by decide

/-- D-12: pairs outside the reachable set. -/
theorem test_debupd_unreachable_pairs :
    (Debouncer.update 4 2 ⟨.steadyLo, 0⟩ false, Debouncer.update 4 2 ⟨.transientLoHi, 4⟩ true,
     Debouncer.update 4 2 ⟨.transientLoHi, 4⟩ false, Debouncer.update 4 2 ⟨.steadyHi, 0⟩ true) =
      ((⟨.transientLoHi, 0⟩, true), (⟨.steadyHi, 4⟩, false), (⟨.transientLoHi, 3⟩, false), (⟨.transientHiLo, 0⟩, true)) := by
  decide

/-- D-15: the unsigned twin of Scenario A, after two and after six samples. -/
theorem test_unsigned_twin :
    let f := fun (d : UDebouncer) (_ : Nat) => (UDebouncer.update 4 2 d true).1
    ((List.range 2).foldl f ⟨.steadyLo, 0⟩, (List.range 6).foldl f ⟨.steadyLo, 0⟩) =
      (⟨.transientLoHi, 4⟩, ⟨.steadyHi, 8⟩) := by decide

theorem test_debupd : after (exec (.debupd 0 0 true) primed) (fun t => (t.key 0 0, t.latch.changed)) =
    some (⟨.transientLoHi, 0⟩, true) := by decide

theorem test_debupd_violation_debug :
    after (exec (.debupd 0 0 true) broken) (fun t => (t.phase, t.fcode)) = some (.failed, 5#4) ∧
    after (exec (.debupd 0 0 true) broken) (fun t => (t.faultKey, t.latch.changed)) = some (some (0, 0), false) := by decide

theorem test_debupd_violation_defensive :
    after (exec (.debupd 0 0 true) (defensive broken)) (fun t => (t.phase, t.latch.changed, (t.key 0 0).cnt)) =
      some (.ready, false, 5) := by decide

theorem test_debout : after (exec (.debout 0 0) publishing) (fun t => t.latch.output) = some true ∧
    after (exec (.debout 0 0) (primed.setKey 0 0 ⟨.transientHiLo, 3⟩)) (fun t => t.latch.output) = some false := by decide

/-! ### The SnapshotBuffer and the engine -/

theorem test_sbwr :
    after (exec (.sbwr 1 0 0x0021#16) running) (fun t => (t.snapWord 1 0, t.snapWord 0 0)) =
      some (some 0x0021#16, some 0x0001#16) ∧
    after (exec (.sbwr 0 0 0x0002#16) primed) (fun t => t.snapWord 0 0) = some (some 0x0002#16) := by decide

/-- P6, the variants of step 7. -/
theorem test_overruns :
    faultOf (exec (.sbwr 0 0 0#16) running) = some (.overrunWrite 0 0) ∧
    faultOf (exec (.notify 1) running) = some (.overrunNotify 1) ∧
    answered (exec (.init false) running) = some (9#4, none) := by decide

theorem test_sbrd : after (exec (.sbrd 0 0) primed) (fun t => (t.latch.word, t.draws)) = some (0x0001#16, 0) ∧
    after (exec (.sbrd 1 0) primed) (fun t => t.draws) = some 1 := by decide

/-- K-1: the pin select. -/
theorem test_pin_select :
    ([(0 : Idx), 1, 2, 3].map fun c => pinSelect (Config.withDefaults 1 4 4 2 4 (pins [[3, 0, 2, 1]])) 0x0006#16 0 c) =
      [false, false, true, true] := by decide

/-- R105: the worked example. -/
theorem test_keystep :
    after (exec (.keystep 0 0 0) primed) (fun t => (t.key 0 0, t.ssBit 0 0, t.eq.map Event.word)) =
      some (⟨.transientLoHi, 0⟩, true, [0x8100#16]) := by decide

/-- R135: the key is published although the queue is full and the event is dropped. -/
theorem test_keystep_drop :
    after (exec (.keystep 0 0 0) (queued primed 4)) (fun t => (t.ssBit 0 0, t.eq.length, t.latch.taken)) =
      some (true, 4, false) := by decide

theorem test_notify : after (exec (.notify 0) primed) (fun t => (t.busy, t.cur)) = some (true, ⟨0, 0, 0⟩) ∧
    answered (exec (.notify 0) (State.powerOn one)) = some (9#4, none) := by decide

/-- K-2: the traversal order. -/
theorem test_traversal : keyOrder six = [(0, 0), (0, 1), (0, 2), (1, 0), (1, 1), (1, 2)] ∧
    (Cursor.next six ⟨1, 0, 2⟩, Cursor.next six ⟨1, 0, 1⟩) = (⟨1, 1, 0⟩, ⟨1, 0, 2⟩) := by decide

/-- The engine's turn: the only key of the matrix is stepped and the dispatch ends. -/
theorem test_engine_turn : after (step running) (fun t => (t.key 0 0, t.busy, t.ssBit 0 0)) =
    some (⟨.transientLoHi, 0⟩, false, true) := by decide

/-! ### The StateStore -/

/-- SS-1. -/
theorem test_sswr : (Word.putBit 0x0012#16 0 true, Word.putBit 0x0013#16 4 false, Word.putBit 0x0003#16 1 true) =
    (0x0013#16, 0x0003#16, 0x0003#16) ∧ after (exec (.sswr 0 0 true) primed) (fun t => t.ssRow 0) = some 0x0001#16 := by decide

theorem test_ssrd : answered (exec (.ssrd 0 0) (started one true)) = some (0#4, some 0x0001#16) ∧
    answered (exec (.ssrd 1 0) (started one true)) = some (7#4, none) := by decide

/-- SS-2. -/
theorem test_ssrdrow : answered (exec (.ssrdrow 1) (started six true)) = some (0#4, some 0x0007#16) ∧
    answered (exec (.ssrdrow 1) (State.powerOn one)) = some (9#4, none) := by decide

/-! ### The EventRelay, vector ER-1 -/

theorem test_erpush :
    after (exec (.erpush 0 0 true) (queued (started one false) 3)) (fun t => (t.eq.length, t.latch.taken)) = some (4, true) ∧
    after (exec (.erpush 0 0 true) (queued (started one false) 4)) (fun t => (t.eq.length, t.latch.taken)) =
      some (4, false) := by decide

theorem test_erpop : answered (exec .erpop (queued primed 1)) = some (0#4, some 0x8100#16) ∧
    answered (exec .erpop primed) = some (0#4, some 0x0000#16) := by decide

/-! ### Lifecycle -/

/-- L-2. -/
theorem test_init :
    after (exec (.init false) (State.powerOn six)) (fun t => (t.key 1 2, t.ssRow 1, t.phase, t.answer.bind Answer.data)) =
      some (⟨.steadyLo, -4⟩, 0x0000#16, .ready, some 0#16) := by decide

/-- P5 part b. -/
theorem test_init_fault :
    after (exec (.init false) (State.powerOn bad)) (fun t => (t.phase, t.fcode, t.answer.bind Answer.data)) =
      some (.failed, 1#4, some 0x0001#16) ∧ answered (exec (.init false) failed) = some (9#4, none) := by decide

/-- L-1: the lowest failing code. -/
theorem test_config_check :
    ([(1, 1, 2, 1), (4, 4, 4, 4), (4, 4, 4, 0), (0, 3, 4, 2), (17, 3, 0, 0), (0, 3, 200, 2), (4, 4, 128, 2),
      (16, 16, 127, 126)].map fun (r, c, s, t) => (configError (Config.withDefaults r c s t 1 identityPinmap)).num) =
      [0#4, 1#4, 1#4, 2#4, 1#4, 2#4, 3#4, 0#4] := by decide

theorem test_config_pins :
    (configError (Config.withDefaults 1 2 4 2 1 (pins [[0, 0]]))).num = 4#4 ∧
    (configError (Config.withDefaults 1 1 4 2 1 (pins [[16]]))).num = 4#4 := by decide

/-- R144: busy <- 0 with STOP_ABORTS_DISPATCH, inside a key step as between two. -/
theorem test_stop : after (exec .stop running) (fun t => t.busy) = some true ∧
    after (exec .stop (aborting running)) (fun t => (t.busy, t.cutKey)) = some (false, none) ∧
    after (exec .stop (aborting publishing)) (fun t => (t.busy, t.cutKey)) = some (false, some (0, 0)) := by decide

/-- R144, R146: after such a STOP the engine ends the key step and the next INIT and NOTIFY are served. -/
theorem test_stop_inside_key_step :
    after (step stopped) (fun t => (t.ssBit 0 0, t.stage)) = some (true, .forward) ∧
    after (exec (.init true) stopped) (fun t => (t.phase, t.cutKey, t.stage, t.ssBit 0 0)) =
      some (.ready, none, .keyStart, true) ∧
    after (exec (.notify 1) stopped) (fun t => (t.busy, t.cur.h, t.dueKey, t.stage)) =
      some (true, 1, some (0, 0), .publish) := by decide

/-- The order of checks: decode before phase, phase before index (P5 part a, steps 3, 5 and 13). -/
theorem test_order_of_checks :
    answered (step ((State.powerOn one).withInbox [.port 0x40100000#32])) = some (9#4, none) ∧
    answered (step ((State.powerOn one).withInbox [.port 0x00000000#32])) = some (8#4, none) ∧
    answered (step ((started one false).withInbox [.port 0x90000001#32])) = some (8#4, none) := by decide

/-- The pseudo-operation FIELD and a trace line. -/
theorem test_assembly : (fieldOps six 1 fun _ => 5#16).map encode = [0x21000005#32, 0x21100005#32, 0x31000000#32] ∧
    traceLine (.notify 0) primed = "NOTIFY 0" := by decide

/-- L-5. -/
theorem test_times : (Config.withTimes (Config.withDefaults 4 1 0 0 1 identityPinmap) ⟨1, 20, 5, 0⟩).steady = 5 ∧
    (Config.withTimes (Config.withDefaults 4 1 0 0 1 identityPinmap) ⟨1, 20, 5, 0⟩).transient = 2 := by decide

/-! ### The invariant on small states, for the witnesses below -/

theorem only_key {r c : Idx} (h : inMatrix one r c = true) : r = 0 ∧ c = 0 := by
  simp only [inMatrix_iff] at h
  have h1 : r.val < 1 := h.1
  have h2 : c.val < 1 := h.2
  exact ⟨Fin.ext (by simpa using h1), Fin.ext (by simpa using h2)⟩

/-- The move is not a test bench's. -/
def notBench : Slot → Bool
  | .bench _ => false
  | .port _ | .engineMicro | .engineKey | .powerOn => true

theorem noBench_of {s : State} (h : s.inbox.all notBench = true) : NoBench s := fun w hw => by
  have := List.all_eq_true.1 h _ hw
  cases this

/-- A state of `one`, STOP_ABORTS_DISPATCH set or not, in Ready meets the invariant when its one key does. -/
theorem inv_of_key {s : State} (abort : Bool) (d : Debouncer) (hP : s.cfg = { one with stopAbortsDispatch := abort })
    (hph : s.phase = .ready) (hf : s.fcode = 0#4) (hs : s.snap = [(0, 0x0001#16)]) (hq : s.eq = [])
    (hb : s.busy = true → s.cursorKey = some (0, 0))
    (hc : s.cutKey = none ∨ (s.cutKey = some (0, 0) ∧ s.stage ≠ .keyStart))
    (hi : s.active = false → s.stage = .keyStart) (hk : s.active = true → s.dueKey = some (0, 0))
    (hd : s.key 0 0 = d) (hr : Reach 4 2 d)
    (hp : (s.stage ≠ .output ∧ s.stage ≠ .publish ∧ s.ssBit 0 0 = d.fsm.out) ∨
      (s.active = true ∧ s.stage = .publish ∧ s.ssBit 0 0 = !d.fsm.out))
    (hl : s.stage = .publish ∨ s.stage = .forward → s.latch.output = d.fsm.out)
    (hn : s.inbox.all notBench = true) : Inv s where
  memory := by rw [hs]; decide
  queue := by simp [hq]
  lifecycle := by
    refine ⟨fun h => ⟨hph, by simp [hb h]⟩, fun r c h => ?_, hi, fun _ => by rw [hP]; cases abort <;> decide, fun _ => hf,
      fun h => ?_⟩
    · rcases hc with h' | ⟨h', h2⟩
      · rw [h'] at h; cases h
      · rw [h'] at h
        cases h
        exact ⟨hph, h2, by rw [hP]; rfl⟩
    · rw [hph] at h
      cases h
  reach := by
    intro _ r c hm
    rw [hP] at hm ⊢
    obtain ⟨rfl, rfl⟩ := only_key hm
    rw [hd]
    exact hr
  published := by
    intro _ r c hm
    rw [hP] at hm
    obtain ⟨rfl, rfl⟩ := only_key hm
    rw [← hd] at hp
    rcases hp with ⟨h1, h2, h3⟩ | ⟨h1, h2, h3⟩
    · refine ⟨fun _ => h3, fun ha => ?_⟩
      rcases ha.2.1 with h | h
      · exact absurd h h1
      · exact absurd h h2
    · exact ⟨fun ha => absurd ⟨h1, .inr h2, hk h1⟩ ha, fun _ => h3⟩
  latched := by
    intro r c hkk hst
    cases ha : s.active with
    | false => rw [hi ha] at hst; rcases hst with h | h <;> cases h
    | true =>
      rw [hk ha] at hkk
      cases hkk
      rw [hd]
      exact hl hst
  noBench := noBench_of hn

theorem primed_inv : Inv primed :=
  inv_of_key false ⟨.steadyLo, -3⟩ rfl (by decide) (by decide) (by decide) (by decide) (by decide) (by decide) (by decide)
    (by decide) (by decide) (by simp [Reach]) (.inl (by decide)) (by decide) (by decide)

theorem running_inv : Inv running :=
  inv_of_key false ⟨.steadyLo, -3⟩ rfl (by decide) (by decide) (by decide) (by decide) (by decide) (by decide) (by decide)
    (by decide) (by decide) (by simp [Reach]) (.inl (by decide)) (by decide) (by decide)

/-- Inside a key step whatever the next move, with the dispatch in progress or cut off by STOP. -/
theorem publishing_inv : Inv (publishing.withInbox [.engineMicro]) ∧ Inv (publishing.withInbox [.engineKey]) ∧
    Inv publishing ∧ Inv (aborting publishing) ∧ Inv stopped :=
  ⟨inv_of_key false ⟨.transientLoHi, 0⟩ rfl (by decide) (by decide) (by decide) (by decide) (by decide) (by decide) (by decide)
     (by decide) (by decide) (by simp [Reach]) (.inr (by decide)) (by decide) (by decide),
   inv_of_key false ⟨.transientLoHi, 0⟩ rfl (by decide) (by decide) (by decide) (by decide) (by decide) (by decide) (by decide)
     (by decide) (by decide) (by simp [Reach]) (.inr (by decide)) (by decide) (by decide),
   inv_of_key false ⟨.transientLoHi, 0⟩ rfl (by decide) (by decide) (by decide) (by decide) (by decide) (by decide) (by decide)
     (by decide) (by decide) (by simp [Reach]) (.inr (by decide)) (by decide) (by decide),
   inv_of_key true ⟨.transientLoHi, 0⟩ rfl (by decide) (by decide) (by decide) (by decide) (by decide) (by decide) (by decide)
     (by decide) (by decide) (by simp [Reach]) (.inr (by decide)) (by decide) (by decide),
   inv_of_key true ⟨.transientLoHi, 0⟩ rfl (by decide) (by decide) (by decide) (by decide) (by decide) (by decide) (by decide)
     (by decide) (by decide) (by simp [Reach]) (.inr (by decide)) (by decide) (by decide)⟩

/-! ### Witnesses: states and operands that meet the hypotheses of a statement together, one per clause -/

theorem witness_EncodeOfDecodeIsIdentity : decode 0x21F0FFFF#32 = .ok (.sbwr 1 15 0xFFFF#16) := by decide

theorem witness_DecoderTotalAndUnambiguous :
    (∀ o : Opcode, o.selects 0xFFFFFFFF#32 = false) ∧
    (primed.withInbox [.port 0xFFFFFFFF#32]).inbox = .port 0xFFFFFFFF#32 :: [] :=
  ⟨fun o => by cases o <;> decide, rfl⟩

theorem witness_IllegalCommandAtPort :
    (primed.withInbox [.port 0x90000001#32]).inbox = .port 0x90000001#32 :: [] ∧
    ∀ o : Opcode, o.isPort = true → o.selects 0x90000001#32 = false :=
  ⟨rfl, fun o => by cases o <;> decide⟩

theorem witness_StepRunsDecodedInstruction :
    ((primed.withInbox [.port 0x31000000#32]).inbox = .port 0x31000000#32 :: [] ∧
      decode 0x31000000#32 = .ok (.notify 1) ∧ (Instr.notify 1).opcode.isPort = true) ∧
    ((primed.withInbox [.bench 0xD1200000#32]).inbox = .bench 0xD1200000#32 :: [] ∧
      decode 0xD1200000#32 = .ok (.sbrd 1 2) ∧ (Instr.sbrd 1 2).opcode.isPort = false) ∧
    ((publishing.withInbox [.engineMicro]).inbox = .engineMicro :: [] ∧
      (publishing.withInbox [.engineMicro]).active = true ∧
      (publishing.withInbox [.engineMicro]).dueKey = some (0, 0)) ∧
    (running.active = true ∧ running.stage = .keyStart ∧ running.dueKey = some (0, 0) ∧ running.inbox = [] ∧
      (running.withInbox [.engineKey]).inbox = .engineKey :: []) ∧
    (stopped.active = true ∧ stopped.stage ≠ .keyStart ∧ stopped.dueKey = some (0, 0) ∧ stopped.inbox = [] ∧
      (publishing.withInbox [.engineKey]).inbox = .engineKey :: [] ∧ publishing.active = true ∧
      publishing.stage ≠ .keyStart ∧ publishing.dueKey = some (0, 0)) ∧
    (primed.active = false ∧ primed.inbox = [] ∧ (primed.withInbox [.engineMicro]).inbox = .engineMicro :: [] ∧
      (primed.withInbox [.engineKey]).inbox = .engineKey :: [] ∧ primed.cutKey = none) := by
  decide

theorem witness_CounterRegisterHoldsRange :
    counterWidthOk (Config.withDefaults 16 16 127 126 1 identityPinmap) = true ∧
    (-((127 : Nat) : Int) ≤ -127 ∧ (-127 : Int) ≤ (127 : Nat)) ∧ (-((127 : Nat) : Int) ≤ 127 ∧ (127 : Int) ≤ (127 : Nat)) := by
  decide

theorem witness_EventWordFields : primed.phase = .ready ∧
    (∃ t, exec .erpop primed = .next t ∧ t.answers .none (some 0x0000#16)) ∧
    ∃ t, exec .erpop (queued primed 1) = .next t ∧ t.answers .none (some 0x8100#16) :=
  ⟨rfl, ⟨_, rfl, rfl⟩, ⟨_, rfl, rfl⟩⟩

theorem witness_SaturatingStep : (-((126 : Nat) : Int) ≤ 126 ∧ (126 : Int) ≤ (126 : Nat)) ∧
    (-((126 : Nat) : Int) ≤ -126 ∧ (-126 : Int) ≤ (126 : Nat)) ∧ 2 * 126 + 4 ≤ 2 ^ 8 := by decide

/-- One state and sample per row of the table, at the threshold of the row, with S = 4 and T = 2. -/
theorem witness_TransitionTable :
    (0 < 2 ∧ 2 < 4) ∧
    (stepCounter 4 (-4) true < -(4 - 2) ∧ stepCounter 4 (-3) true ≥ -(4 - 2)) ∧
    (-4 < stepCounter 4 (-2) false ∧ stepCounter 4 (-2) false < 4 ∧ stepCounter 4 3 true = 4 ∧ stepCounter 4 (-3) false = -4) ∧
    (stepCounter 4 4 false > 4 - 2 ∧ stepCounter 4 3 false ≤ 4 - 2) ∧
    (-4 < stepCounter 4 2 true ∧ stepCounter 4 2 true < 4) ∧
    ((Debouncer.initial 4 false).fsm = Fsm.steadyOf (!true) ∧
      ((Debouncer.initial 4 false).feed 4 2 (List.replicate 6 true)).fsm = Fsm.steadyOf true) := by
  decide

theorem witness_ChangedIffOutputFlips : (0 < 1 ∧ 1 < 2) ∧
    (Debouncer.update 2 1 ⟨.steadyLo, -2⟩ false).1.fsm = Fsm.steadyLo ∧
    (Fsm.steadyLo = Fsm.steadyOf (!true) ∧ (Debouncer.update 2 1 ⟨.steadyLo, -2⟩ true).1.fsm = Fsm.transientTo true) ∧
    (Fsm.transientLoHi = Fsm.transientTo true ∧
      (Debouncer.update 2 1 ⟨.transientLoHi, 1⟩ true).1.fsm = Fsm.steadyOf true) ∧
    (Fsm.transientLoHi = Fsm.transientTo true ∧
      (Debouncer.update 2 1 ⟨.transientLoHi, -1⟩ false).1.fsm = Fsm.steadyOf (!true)) := by decide

theorem witness_RangeLaw : (0 < 1 ∧ 1 < 2) ∧ Reach (2 : Nat) (1 : Nat) { fsm := .transientHiLo, cnt := 1 } := by
  simp [Reach]

/-- A steady state at the inner edge, the fresh transient state, and the farthest pair, which needs 2S − 1 samples. -/
theorem witness_SettlingLaw : (0 < 2 ∧ 2 < 4) ∧
    (Reach (4 : Nat) (2 : Nat) { fsm := .steadyLo, cnt := -3 } ∧ Fsm.steadyLo = Fsm.steadyOf (Fsm.steadyLo).out) ∧
    (Reach (4 : Nat) (2 : Nat) { fsm := .transientLoHi, cnt := 0 } ∧
      Fsm.transientLoHi = Fsm.transientTo (Fsm.transientLoHi).out ∧ (0 : Int) ≤ 0) ∧
    (Reach (4 : Nat) (2 : Nat) { fsm := .transientLoHi, cnt := -3 } ∧ (4 : Int) - (-3) = 2 * 4 - 1 ∧ (4 : Int) - (-3) ≤ (7 : Nat)) := by
  simp [Reach, Fsm.out, Fsm.steadyOf, Fsm.transientTo]

theorem witness_OscillationLaw : (0 < 2 ∧ 2 < 4 ∧ 2 ≤ 2) ∧ (0 < 1 ∧ 1 < 2 ∧ 1 = 1) := by decide

/-- With S = 2: sequences of votes that stay inside, that reach +S, and that reach −S. -/
theorem witness_LatencyLaw : (0 < 1 ∧ 1 < 2) ∧
    (-((2 : Nat) : Int) < votes [true, false] ∧ votes [true, false] < (2 : Nat)) ∧
    (votes [true, true] = (2 : Nat) ∧ votes [false, false] = -((2 : Nat) : Int)) ∧
    ∀ (b : Bool) (ys zs : List Level), [b, b] = ys ++ zs → zs ≠ [] → -((2 : Nat) : Int) < votes ys ∧ votes ys < (2 : Nat) := by
  refine ⟨by decide, by decide, by decide, fun b ys zs h hz => ?_⟩
  cases ys with
  | nil => decide
  | cons y ys =>
    cases ys with
    | nil => cases y <;> decide
    | cons y' ys =>
      simp only [List.cons_append, List.cons.injEq] at h
      obtain ⟨_, _, h⟩ := h
      exact absurd (List.append_eq_nil_iff.1 h.symm).2 hz

theorem witness_UnsignedTwinAgrees : (0 < 1 ∧ 1 < 2) ∧ (UDebouncer.mk .steadyHi 4).u ≤ uMax 2 := by decide

theorem witness_DebupdCompletes : inMatrix primed.cfg 0 0 = true ∧ (primed.key 0 0).inRange primed.cfg.steady = true := by
  decide

theorem witness_DebupdViolation :
    (inMatrix broken.cfg 0 0 = true ∧ (broken.key 0 0).inRange broken.cfg.steady = false ∧ broken.cfg.buildMode = .debug) ∧
    (inMatrix (defensive broken).cfg 0 0 = true ∧ ((defensive broken).key 0 0).inRange (defensive broken).cfg.steady = false ∧
      (defensive broken).cfg.buildMode = .defensive) := by decide

theorem witness_DeboutCompletes : inMatrix (started six true).cfg 1 2 = true := by decide

theorem witness_SbwrStores : (Memory.wf running.snap ∧ inRow running.cfg 0 = true ∧ running.busy = true ∧ running.cur.h ≠ 1) ∧
    (Memory.wf primed.snap ∧ inRow primed.cfg 0 = true ∧ primed.busy = false) := by decide

theorem witness_SbwrOverrun : (running.busy = true ∧ running.cur.h = 0) ∧ inRow running.cfg 0 = true ∧
    inRow running.cfg 1 = false := by decide

theorem witness_SbrdReads : inRow primed.cfg 0 = true ∧ primed.snapWord 0 0 = some 0x0001#16 ∧ primed.snapWord 1 0 = none := by
  decide

theorem witness_KeystepEffect :
    (inMatrix primed.cfg 0 0 = true ∧ (primed.key 0 0).inRange primed.cfg.steady = true ∧
      ((primed.key 0 0).update primed.cfg.steady primed.cfg.transient true).2 = true ∧
      primed.eq.length < primed.cfg.queueCap ∧ primed.cfg.relayMayDropEarly = false) ∧
    ((primed.key 0 0).update primed.cfg.steady primed.cfg.transient false).2 = false ∧
    (queued primed 4).cfg.queueCap ≤ (queued primed 4).eq.length := by decide

theorem witness_KeystepViolation :
    (inMatrix broken.cfg 0 0 = true ∧ (broken.key 0 0).inRange broken.cfg.steady = false ∧ broken.cfg.buildMode = .debug) ∧
    (defensive broken).cfg.buildMode = .defensive := by decide

theorem witness_NotifyAccepts : (primed.phase = .ready ∧ primed.busy = false ∧ primed.cutKey = none) ∧
    (stopped.phase = .ready ∧ stopped.busy = false ∧ stopped.cutKey ≠ none) := by decide

/-- The key step of five moves, and the key step of two: key (0,0) of `running` with the word 0, which samples Lo. -/
theorem witness_MicroOperationsRefineKeystep :
    ((running.withInbox [.engineKey]).active = true ∧ (running.withInbox [.engineKey]).stage = .keyStart ∧
      ((running.withInbox [.engineKey]).dueKey).isSome = true ∧
      (running.withInbox [.engineKey]).inbox = .engineKey :: [] ∧
      after (step (running.withInbox [.engineKey])) (fun t => t.latch.changed) = some true) ∧
    (((running.setSnap 0 0 0#16).withInbox [.engineKey]).active = true ∧
      ((running.setSnap 0 0 0#16).withInbox [.engineKey]).stage = .keyStart ∧
      (((running.setSnap 0 0 0#16).withInbox [.engineKey]).dueKey).isSome = true ∧
      ((running.setSnap 0 0 0#16).withInbox [.engineKey]).inbox = .engineKey :: [] ∧
      after (step ((running.setSnap 0 0 0#16).withInbox [.engineKey])) (fun t => t.latch.changed) = some false) := by
  decide

theorem witness_DispatchIsOneTimestepOfEveryKey : Inv primed ∧ primed.phase = .ready ∧ primed.busy = false ∧
    primed.stage = .keyStart ∧ primed.inbox = [] ∧ HalfWritten primed 0 ∧ primed.cfg.relayMayDropEarly = false :=
  ⟨primed_inv, rfl, by decide, rfl, rfl, fun r h => by
    have h1 : r.val < 1 := inRow_iff.1 h
    have : r = 0 := Fin.ext (by simpa using h1)
    subst this
    decide, rfl⟩

theorem witness_SswrStoresOneBit : inMatrix primed.cfg 0 0 = true ∧ primed.ssBit 0 0 = false := by decide

theorem witness_SsrdReads : (started six true).phase = .ready ∧ inMatrix (started six true).cfg 1 2 = true := by decide

theorem witness_SsrdrowReads : (started six true).phase = .ready ∧ inRow (started six true).cfg 1 = true := by decide

/-- Room for one more record, and none. -/
theorem witness_ErpushOffers :
    (inMatrix primed.cfg 0 0 = true ∧ (queued primed 3).eq.length < (queued primed 3).cfg.queueCap ∧
      primed.cfg.relayMayDropEarly = false) ∧ ¬ (queued primed 4).eq.length < (queued primed 4).cfg.queueCap ∧
    (dropping primed).cfg.relayMayDropEarly = true := by decide

theorem witness_ErpopTakesOldest : (primed.phase = .ready ∧ primed.eq = []) ∧
    ((queued primed 2).phase = .ready ∧ (queued primed 2).eq = ⟨0, 0, true⟩ :: [⟨0, 0, true⟩]) := by decide

theorem witness_RelayIsBoundedFifo : ∃ t, step running = .next t := ⟨_, rfl⟩

/-- One configuration for each clause, at a boundary of the check that fails. -/
theorem witness_ConfigCheckReportsLowestCode :
    (¬ (0 < 4 ∧ 4 < 4) ∧ configError (Config.withDefaults 4 4 4 4 1 identityPinmap) = .configThresholdOrder) ∧
    ((0 < 2 ∧ 2 < 4) ∧ ¬ ((1 ≤ 17 ∧ 17 ≤ 16) ∧ (1 ≤ 3 ∧ 3 ≤ 16)) ∧
      configError (Config.withDefaults 17 3 4 2 1 identityPinmap) = .configDimRange) ∧
    (((1 ≤ 4 ∧ 4 ≤ 16) ∧ (1 ≤ 4 ∧ 4 ≤ 16)) ∧ ¬ (128 ≤ 2 ^ (8 - 1) - 1) ∧
      configError (Config.withDefaults 4 4 128 2 1 identityPinmap) = .configCounterWidth) ∧
    (4 ≤ 2 ^ (8 - 1) - 1 ∧ ¬ ((pins [[16]])[0][0] < 16) ∧
      configError (Config.withDefaults 1 1 4 2 1 (pins [[16]])) = .configPinMap) ∧
    (∀ r c : Idx, r.val < one.rows → c.val < one.cols →
      one.pin r c < 16 ∧ ∀ c' : Idx, c'.val < one.cols → c' ≠ c → one.pin r c ≠ one.pin r c') := by
  refine ⟨by decide, by decide, by decide, by decide, fun r c hr hc => ?_⟩
  obtain ⟨rfl, rfl⟩ := only_key (inMatrix_iff.2 ⟨hr, hc⟩)
  refine ⟨by decide, fun c' hc' hne => absurd ?_ hne⟩
  have h1 : c'.val < 1 := hc'
  exact Fin.ext (by simpa using h1)

theorem witness_InitEstablishesPolarity :
    ((State.powerOn one).phase ≠ .failed ∧ (State.powerOn one).busy = false ∧ configValid (State.powerOn one).cfg = true ∧
      (State.powerOn one).phase = .uninit) ∧ (primed.phase = .ready ∧ primed.cfg.initClearsRelay = true) ∧
    (primed.stage = .keyStart ∧ primed.cutKey = none) ∧
    inMatrix primed.cfg 0 0 = true := by decide

theorem witness_InitReportsConfigurationFault :
    (State.powerOn bad).phase ≠ .failed ∧ (State.powerOn bad).busy = false ∧ configValid (State.powerOn bad).cfg = false := by
  decide

theorem witness_StopKeepsState :
    (running.cfg.stopAbortsDispatch = false ∧ running.busy = true) ∧
    ((aborting running).cfg.stopAbortsDispatch = true ∧ (aborting running).busy = true ∧
      (aborting running).stage = .keyStart) ∧
    ((aborting publishing).cfg.stopAbortsDispatch = true ∧ (aborting publishing).busy = true ∧
      (aborting publishing).stage ≠ .keyStart) := by decide

theorem witness_ScanResumesAfterStop : primed.phase = .ready ∧ primed.busy = false ∧ ∃ t, exec .stop primed = .next t :=
  ⟨rfl, by decide, ⟨_, rfl⟩⟩

theorem witness_IllegalPhaseRefused :
    ((State.powerOn one).phase ≠ .ready ∧ failed.phase ≠ .ready) ∧
    (primed.phase = .ready ∧ ∃ t, exec (.notify 0) primed = .next t) ∧ (failed.phase = .failed ∧ running.busy = true) ∧
    (primed.phase ≠ .failed ∧ primed.busy = false) ∧
    (∃ t, exec (.sbwr 0 0 0#16) failed = .next t) ∧ ∃ t, exec .stop failed = .next t :=
  ⟨by decide, ⟨rfl, _, rfl⟩, by decide, by decide, ⟨_, rfl⟩, ⟨_, rfl⟩⟩

theorem witness_BadIndexRefused :
    ((Instr.ssrd 0 1).opcode.isPort = true ∧ (Instr.ssrd 0 1).wellFormed primed.cfg = false ∧ primed.phase = .ready) ∧
    ((Instr.sbwr 0 1 0#16).wellFormed failed.cfg = false ∧ (Instr.sbwr 0 1 0#16).opcode = .sbwr) := by decide

theorem witness_MicroBadIndexRefused : (Instr.keystep 0 0 1).opcode.isPort = false ∧
    (Instr.keystep 0 0 1).wellFormed primed.cfg = false := by decide

theorem witness_PowerOnState : (failed.withInbox [.powerOn]).inbox = .powerOn :: [] := rfl

theorem witness_StepKeepsInvariant : Inv running ∧ (∃ t, step running = .next t) := ⟨running_inv, _, rfl⟩

theorem witness_PublicationInvariant :
    (Inv primed ∧ primed.phase = .ready ∧ primed.stage = .keyStart ∧ inMatrix primed.cfg 0 0 = true) ∧
    (primed.phase ≠ .failed ∧ primed.busy = false ∧ configValid primed.cfg = true ∧
      (∃ t, exec (.init true) primed = .next t)) ∧
    (Inv running ∧ ∃ t, step running = .next t ∧ t.phase = .ready ∧ t.stage = .keyStart) ∧
    (Inv (publishing.withInbox [.engineMicro]) ∧ publishing.active = true ∧ publishing.stage = .publish ∧
      publishing.dueKey = some (0, 0) ∧ (∃ t, step (publishing.withInbox [.engineMicro]) = .next t) ∧
      Inv (publishing.withInbox [.engineKey]) ∧ (∃ t, step (publishing.withInbox [.engineKey]) = .next t) ∧
      Inv stopped ∧ stopped.active = true ∧ stopped.stage = .publish ∧ stopped.dueKey = some (0, 0) ∧
      stopped.inbox = [] ∧ ∃ t, step stopped = .next t) ∧
    (running.active = true ∧ running.stage = .keyStart ∧ running.dueKey = some (0, 0) ∧ running.inbox = [] ∧
      after (step running) (fun t => t.latch.changed) = some true) :=
  ⟨⟨primed_inv, rfl, rfl, by decide⟩, ⟨by decide, by decide, by decide, ⟨_, rfl⟩⟩, ⟨running_inv, _, rfl, by decide, by decide⟩,
    ⟨publishing_inv.1, by decide, by decide, by decide, ⟨_, rfl⟩, publishing_inv.2.1, ⟨_, rfl⟩, publishing_inv.2.2.2.2,
      by decide, by decide, by decide, by decide, ⟨_, rfl⟩⟩, by decide⟩

theorem witness_StoreBeforeEvent : Inv running ∧ ∃ t, step running = .next t ∧
    t.eq = running.eq ++ [{ row := 0, col := 0, output := true }] := ⟨running_inv, _, rfl, by decide⟩

theorem witness_ConfigurationIsConstant : ∃ t, step running = .next t := ⟨_, rfl⟩

theorem failed_inv : Inv failed where
  memory := by decide
  queue := by decide
  lifecycle := ⟨by decide, (fun _ _ h => nomatch h), by decide, by decide, by decide, by decide⟩
  reach := by
    intro h
    cases h
  published := by
    intro h
    cases h
  latched := by
    intro _ _ _ h
    rcases h with h | h <;> cases h
  noBench := noBench_of (by decide)

theorem witness_FailedUntilPowerOn : Inv failed ∧ failed.phase = .failed ∧ (∀ rest, failed.inbox ≠ .powerOn :: rest) ∧
    ∃ t, step failed = .next t :=
  ⟨failed_inv, rfl, fun rest h => (by cases h), _, rfl⟩

theorem witness_InvariantViolationUnreachable : Inv running ∧ running.phase = .ready ∧ ∃ t, step running = .next t :=
  ⟨running_inv, by decide, _, rfl⟩

/-- Both overruns happen. -/
theorem witness_OverrunIsTheOnlyStop :
    faultOf (step (running.withInbox [.port 0x31000000#32])) = some (.overrunNotify 1) ∧
    faultOf (step (running.withInbox [.port 0x20000000#32])) = some (.overrunWrite 0 0) := by decide

/-- Every agent has an operation that completes. -/
theorem witness_AccessRightsByAgent :
    (∃ t, exec (.ssrd 0 0) primed = .next t) ∧ (Instr.ssrd 0 0).opcode.issuer = .reader ∧
    (∃ t, exec .erpop primed = .next t) ∧ Instr.erpop.opcode.issuer = .consumer ∧
    (∃ t, exec (.notify 0) primed = .next t) ∧ (Instr.notify 0).opcode.issuer = .rowDriver ∧
    (∃ t, exec .stop primed = .next t) ∧ Instr.stop.opcode.issuer = .host ∧
    (∃ t, exec (.debout 0 0) primed = .next t) ∧ (Instr.debout 0 0).opcode.issuer = .engine :=
  ⟨⟨_, rfl⟩, rfl, ⟨_, rfl⟩, rfl, ⟨_, rfl⟩, rfl, ⟨_, rfl⟩, rfl, ⟨_, rfl⟩, rfl⟩

theorem witness_QuiescentBlockIsIdle : Inv primed ∧ Quiescent primed :=
  ⟨primed_inv, by decide, by decide, by decide, by decide⟩

theorem witness_EngineAlwaysEnabled : running.active = true ∧ stopped.active = true ∧ stopped.inbox = [] ∧ running.inbox = [] ∧
    (running.withInbox [.engineMicro]).inbox = .engineMicro :: [] ∧
    (running.withInbox [.engineKey]).inbox = .engineKey :: [] := by decide

theorem witness_TimesRoundUpToFields : 0 < 1 ∧ 0 < 4 ∧ ceilDiv 1 4 = 1 := by decide

theorem witness_RowDriverCapturesFields : 1 ≤ six.rows ∧ six.rows ≤ 16 := by decide

theorem witness_StopEndsWithTheKeyStep : Inv (aborting publishing) ∧ (aborting publishing).cfg.stopAbortsDispatch = true ∧
    (aborting publishing).busy = true ∧ (aborting publishing).stage ≠ .keyStart ∧
    (aborting publishing).dueKey = some (0, 0) ∧ (aborting publishing).inbox = [] ∧
    ∃ t, exec .stop (aborting publishing) = .next t :=
  ⟨publishing_inv.2.2.2.1, by decide, by decide, by decide, by decide, by decide, _, rfl⟩

end Sys2Proof.Tests
end

section
/-! What a successful INIT leaves (10_state.md R36): the Debouncers and the StateStore through their accessors, the
queue, the frame, and the theorem that settles O39. -/

namespace Sys2Proof.Machine

/-! ### Frames -/

/-- A frame may leave out the listed fields that keep their value after all. -/
theorem OnlyChanges.of_same {fs gs : List FieldName} {s t : State} (h : OnlyChanges fs s t)
    (hs : ∀ f ∈ fs, f ∉ gs → f.same s t) : OnlyChanges gs s t := by
  intro f hf
  by_cases hm : f ∈ fs
  · exact hs f hm hf
  · exact h f hm

/-- An answer adds only the field `answer` to a frame. -/
theorem OnlyChanges.doneWith {fs gs : List FieldName} {s t : State} (w : Word) (h : OnlyChanges fs s t)
    (hsub : .answer :: fs ⊆ gs) : OnlyChanges gs s (t.doneWith w) := by
  intro f hf
  have hkept : f.same s t := h f fun hm => hf (hsub (List.mem_cons_of_mem _ hm))
  cases f
  case answer => exact absurd (hsub List.mem_cons_self) hf
  all_goals exact hkept

/-! ### Accessors -/

@[simp] theorem State.key_doneWith (s : State) (w : Word) (r c : Idx) : (s.doneWith w).key r c = s.key r c := rfl

@[simp] theorem State.ssBit_doneWith (s : State) (w : Word) (r c : Idx) : (s.doneWith w).ssBit r c = s.ssBit r c := rfl

/-- Bit c of the column mask is 1 exactly for the columns that exist (30_encoding.md R63). -/
theorem getLsbD_colMask (cols : Nat) (c : Idx) : (colMask cols).getLsbD c.val = decide (c.val < cols) := by
  rw [colMask, BitVec.getLsbD_ofNat, Nat.testBit_two_pow_sub_one]
  simp

/-! ### INIT's effect -/

/-- INIT outside Failed and outside a dispatch, with a valid configuration (44_lifecycle.md R142). -/
theorem exec_init_of_valid {s : State} (pol : Level) (hp : s.phase ≠ .failed) (hb : s.busy = false)
    (hv : configValid s.cfg = true) : exec (.init pol) s = .next ((s.initReady pol).doneWith 0#16) := by
  simp [exec, execInit, hp, hb, hv]

theorem State.key_initReady {s : State} {r c : Idx} (pol : Level) (hm : inMatrix s.cfg r c = true) :
    (s.initReady pol).key r c = Debouncer.initial s.cfg.steady pol := by
  simp [State.key, State.initReady, State.initKeys, State.initSs, hm]

/-- A bit of the matrix is set by the mask when pol is Hi, and cleared by its complement when pol is Lo. -/
theorem State.ssBit_initReady {s : State} {r c : Idx} (pol : Level) (hm : inMatrix s.cfg r c = true) :
    (s.initReady pol).ssBit r c = pol := by
  obtain ⟨hr, hc⟩ := inMatrix_iff.1 hm
  cases pol <;>
    simp [State.ssBit, State.initReady, State.initKeys, State.initSs, inRow_iff, getLsbD_colMask, hr, hc]

/-- The relay is emptied with INIT_CLEARS_RELAY and by the first INIT. -/
theorem State.initReady_eq_nil {s : State} (pol : Level) (h : s.cfg.initClearsRelay = true ∨ s.phase = .uninit) :
    (s.initReady pol).eq = [] := by
  rcases h with h | h <;> simp [h]

/-- A later INIT keeps the relay when INIT_CLEARS_RELAY is clear. -/
theorem State.initReady_eq_kept {s : State} (pol : Level) (hq : s.cfg.initClearsRelay = false) (hr : s.phase = .ready) :
    (s.initReady pol).eq = s.eq := by
  simp [hq, hr]

/-- In a block that is not dispatching, INIT writes the keys, the StateStore, the queue, the lifecycle registers and the
engine's place in a key step. -/
theorem State.initReady_frame {s : State} (pol : Level) (hb : s.busy = false) :
    OnlyChanges [.keys, .ss, .eq, .phase, .fcode, .stage, .cutKey] s (s.initReady pol) := by
  intro f hf
  cases f <;> simp [FieldName.same, hb] at hf ⊢

/-- With no key step in progress, INIT keeps the engine's place too. -/
theorem State.initReady_frame_idle {s : State} (pol : Level) (hb : s.busy = false) (hg : s.stage = .keyStart)
    (hk : s.cutKey = none) : OnlyChanges [.keys, .ss, .eq, .phase, .fcode] s (s.initReady pol) := by
  refine (State.initReady_frame pol hb).of_same fun f hf hn => ?_
  obtain rfl | rfl : f = .stage ∨ f = .cutKey := by simp_all
  · simp [FieldName.same, hg]
  · simp [FieldName.same, hk]

/-- Settles O39: the state after INIT is `initReady` with the answer 0, read through the accessors and the frames. -/
theorem initEstablishesPolarity : Obligations.InitEstablishesPolarity := by
  intro s pol hp hb hv
  refine ⟨_, exec_init_of_valid pol hp hb hv, by simp, by simp, by simp, rfl, fun r c hm => ?_,
    State.initReady_eq_nil pol, State.initReady_eq_kept pol, ?_, fun hg hk => ?_⟩
  · rw [State.key_doneWith, State.ssBit_doneWith, State.key_initReady pol hm]
    exact ⟨rfl, rfl, State.ssBit_initReady pol hm⟩
  · exact (State.initReady_frame pol hb).doneWith _ (by decide)
  · exact (State.initReady_frame_idle pol hb hg hk).doneWith _ (by decide)

end Sys2Proof.Machine
end

section
/-! The decoder and the opcode table (30_encoding.md R66, R67, R70): a row's mask read field by field, the operation a
word selects, the refusal of a word that selects none, and the theorem that settles O4. -/

namespace Sys2Proof

/-! ### The mask of a row, on the fields -/

/-- The bitwise and of two command words, field by field. -/
def Fields.and (f g : Fields) : Fields :=
  { op := f.op &&& g.op, z := f.z &&& g.z, h := f.h &&& g.h, row := f.row &&& g.row, col := f.col &&& g.col,
    data := f.data &&& g.data }

theorem Fields.unpack_and (w v : CmdWord) : Fields.unpack (w &&& v) = (Fields.unpack w).and (Fields.unpack v) := by
  simp [Fields.unpack, Fields.and, BitVec.extractLsb'_and]

/-- Two command words with the same fields are the same word: no bit lies outside the fields. -/
theorem Fields.unpack_inj {w v : CmdWord} : Fields.unpack w = Fields.unpack v ↔ w = v :=
  (Function.LeftInverse.injective Fields.pack_unpack).eq_iff

/-- The bits of a field that a row fixes: none when the operation uses the field, else all (30_encoding.md R66). -/
def fieldMask (n : Nat) (used : Bool) : BitVec n := if used then 0#n else BitVec.allOnes n

@[simp] theorem and_fieldMask_false {n : Nat} (b : BitVec n) : b &&& fieldMask n false = b := by simp [fieldMask]

@[simp] theorem and_fieldMask_eq_zero {n : Nat} (b : BitVec n) (used : Bool) :
    b &&& fieldMask n used = 0#n ↔ used = true ∨ b = 0#n := by
  cases used <;> simp [fieldMask]

/-- The bits of `DATA` that a row fixes; `DATA[0]` is free in a row that uses one bit (30_encoding.md R66). -/
def DataUse.mask : DataUse → BitVec 16
  | .whole => fieldMask 16 true
  | .bit => BitVec.allOnes 15 ++ 0#1
  | .unused => fieldMask 16 false

@[simp] theorem DataUse.mask_whole : DataUse.whole.mask = fieldMask 16 true := rfl

@[simp] theorem DataUse.mask_unused : DataUse.unused.mask = fieldMask 16 false := rfl

/-- The fifteen bits above `DATA[0]` are those the mask of a one-bit row looks at. -/
@[simp] theorem DataUse.and_mask_bit_eq_zero (d : BitVec 16) :
    d &&& DataUse.bit.mask = 0#16 ↔ d.extractLsb' 1 15 = 0#15 := by
  have hsplit : d.extractLsb' 1 15 ++ d.extractLsb' 0 1 = d :=
    (BitVec.extractLsb'_append_extractLsb'_eq_extractLsb' rfl).trans BitVec.extractLsb'_eq_self
  obtain ⟨hi, lo, rfl⟩ : ∃ (hi : BitVec 15) (lo : BitVec 1), d = hi ++ lo := ⟨_, _, hsplit.symm⟩
  rw [DataUse.mask, BitVec.and_append, BitVec.and_allOnes, BitVec.and_zero, BitVec.extractLsb'_append_eq_left]
  exact BitVec.append_left_inj (s₂ := 0#15) 0#1

/-- The bits a row fixes: `OP`, `Z` and what the operation does not use (30_encoding.md R66). -/
def Opcode.maskFields (o : Opcode) : Fields :=
  { op := fieldMask 4 false, z := fieldMask 3 false, h := fieldMask 1 o.usesH, row := fieldMask 4 o.usesRow,
    col := fieldMask 4 o.usesCol, data := o.dataUse.mask }

theorem Opcode.unpack_tableMask (o : Opcode) : Fields.unpack o.tableMask = o.maskFields := by cases o <;> decide

theorem Opcode.unpack_tableMatch (o : Opcode) : Fields.unpack o.tableMatch = Fields.bare o := by cases o <;> decide

/-- Under its mask a row's fields are those of an operation with no operand exactly when `OP` is the row's and every
must-be-zero bit is 0. -/
theorem Opcode.and_maskFields_eq_bare (o : Opcode) (f : Fields) :
    f.and o.maskFields = Fields.bare o ↔ f.op = o.code ∧ o.zerosOk f = true := by
  cases hd : o.dataUse <;>
    simp [Fields.and, Opcode.maskFields, Fields.bare, Opcode.zerosOk, hd, and_assoc]

/-- A row selects a word exactly when the decoder's two checks accept the word for that row. -/
theorem Opcode.selects_iff (o : Opcode) (w : CmdWord) :
    o.selects w = true ↔ (Fields.unpack w).op = o.code ∧ o.zerosOk (Fields.unpack w) = true := by
  rw [← Opcode.and_maskFields_eq_bare, ← Opcode.unpack_tableMask, ← Fields.unpack_and, ← Opcode.unpack_tableMatch,
    Fields.unpack_inj, Opcode.selects, beq_iff_eq]

/-! ### The decoder -/

/-- No two rows share an `OP` value, and the decoder finds the row by it. -/
theorem Opcode.ofCode_eq_some {op : BitVec 4} {o : Opcode} : Opcode.ofCode op = some o ↔ op = o.code := by
  constructor
  · intro h
    rw [Opcode.ofCode] at h
    have hcode := List.find?_some h
    exact (beq_iff_eq.1 hcode).symm
  · rintro rfl
    cases o <;> rfl

theorem Opcode.selects_unique {o o' : Opcode} {w : CmdWord} (h : o.selects w = true) (h' : o'.selects w = true) :
    o' = o := by
  have hrow := Opcode.ofCode_eq_some.2 ((o.selects_iff w).1 h).1
  have hrow' := Opcode.ofCode_eq_some.2 ((o'.selects_iff w).1 h').1
  exact Option.some.inj (hrow'.symm.trans hrow)

theorem decode_of_selects {o : Opcode} {w : CmdWord} (h : o.selects w = true) :
    decode w = .ok (o.build (Fields.unpack w)) := by
  obtain ⟨hop, hz⟩ := (o.selects_iff w).1 h
  simp [decode, Opcode.ofCode_eq_some.2 hop, hz]

theorem decode_error_of_not_selects {w : CmdWord} (h : ∀ o : Opcode, o.selects w = false) :
    ∃ e, decode w = .error e := by
  cases hop : Opcode.ofCode (Fields.unpack w).op with
  | none => exact ⟨.reservedOp (Fields.unpack w).op, by simp [decode, hop]⟩
  | some o =>
    have hz : o.zerosOk (Fields.unpack w) = false := by
      simpa [h o, Opcode.ofCode_eq_some.1 hop] using o.selects_iff w
    exact ⟨.mustBeZero o, by simp [decode, hop, hz]⟩

/-- What does not decode does not decode at a port. -/
theorem decodePort_of_error {w : CmdWord} {e : DecodeError} (h : decode w = .error e) : decodePort w = .error e := by
  simp [decodePort, h]

end Sys2Proof

namespace Sys2Proof.Machine

/-! ### The refusal at a port -/

theorem refused_refuse (c : Code) (s : State) : Refused c s (s.refuse c) := by
  refine ⟨s.refuse_answer c, fun f hf => ?_⟩
  cases f
  case answer => exact absurd List.mem_cons_self hf
  all_goals rfl

/-- A word the port's decoder does not take is refused, whatever the reason (30_encoding.md R69). -/
theorem step_port_of_error {s : State} {w : CmdWord} {rest : List Slot} {e : DecodeError}
    (hi : s.inbox = .port w :: rest) (he : decodePort w = .error e) :
    step s = .next ((s.withInbox rest).refuse .illegalCommand) := by
  simp [step, nextMove, hi, serve, servePort, he]

/-- Settles O4: a row selects a word exactly when the decoder accepts the word for that row, and the OP values tell the
rows apart. -/
theorem decoderTotalAndUnambiguous : Obligations.DecoderTotalAndUnambiguous := by
  intro w
  by_cases h : ∃ o : Opcode, o.selects w = true
  · obtain ⟨o, ho⟩ := h
    exact .inl ⟨o, ho, fun _ ho' => Opcode.selects_unique ho ho', decode_of_selects ho⟩
  · have hnone : ∀ o : Opcode, o.selects w = false := by simpa using h
    obtain ⟨e, he⟩ := decode_error_of_not_selects hnone
    exact .inr ⟨hnone, fun _ _ hi => ⟨_, step_port_of_error hi (decodePort_of_error he), refused_refuse _ _⟩⟩

end Sys2Proof.Machine
end

section
/-! The encodings of state and of event words (30_encoding.md R60, R64): the theorems that settle O8 and O10. -/

namespace Sys2Proof.Machine

/-! ### The codes of the FSM states -/

@[simp] theorem Fsm.ofCode_code (f : Fsm) : Fsm.ofCode f.code = f := by cases f <;> rfl

/-- Each of the four codes is the code of a state. -/
@[simp] theorem Fsm.code_ofCode (b : BitVec 2) : (Fsm.ofCode b).code = b := by
  revert b; decide

theorem Fsm.out_eq_xor (f : Fsm) : f.out = (f.code.getLsbD 1 ^^ f.code.getLsbD 0) := by cases f <;> rfl

/-- Bit 1 of the code is 0 on the Lo-to-Hi side. -/
theorem Fsm.code_bit_one (f : Fsm) : f.code.getLsbD 1 = false ↔ f = .steadyLo ∨ f = .transientLoHi := by
  cases f <;> decide

/-- Bit 0 of the code is 0 in the steady states. -/
theorem Fsm.code_bit_zero (f : Fsm) : f.code.getLsbD 0 = false ↔ f = .steadyLo ∨ f = .steadyHi := by
  cases f <;> decide

/-- Settles O8: the four codes are the definition's, and each reading of their bits is a lemma above. -/
theorem fsmStateCodes : Obligations.FsmStateCodes :=
  ⟨rfl, rfl, rfl, rfl, Fsm.code_ofCode,
    fun f => ⟨f.ofCode_code, f.out_eq_xor, f.code_bit_one, f.code_bit_zero⟩⟩

/-! ### The event word -/

@[simp] theorem Event.word_col (e : Event) : e.word.extractLsb' 0 4 = BitVec.ofFin e.col :=
  BitVec.extractLsb'_append_eq_right

@[simp] theorem Event.word_row (e : Event) : e.word.extractLsb' 4 4 = BitVec.ofFin e.row :=
  (BitVec.extractLsb'_append_eq_of_le (by decide)).trans BitVec.extractLsb'_append_eq_right

theorem Event.word_output (e : Event) : e.word.getLsbD 8 = e.output := by
  simp only [Event.word, BitVec.getLsbD_append]
  simp

@[simp] theorem Event.word_zeros (e : Event) : e.word.extractLsb' 9 6 = 0#6 := by
  rw [Event.word, BitVec.extractLsb'_append_eq_of_le (by decide), BitVec.extractLsb'_append_eq_of_le (by decide),
    BitVec.extractLsb'_append_eq_of_le (by decide)]
  exact BitVec.extractLsb'_append_eq_right

theorem Event.word_valid (e : Event) : e.word.getLsbD 15 = true := by
  simp only [Event.word, BitVec.getLsbD_append]
  simp

theorem emptyEventWord_valid : emptyEventWord.getLsbD 15 = false := rfl

/-! ### The answer of ERPOP -/

theorem exec_erpop_of_ready {s : State} (h : s.phase = .ready) : exec .erpop s = .next s.popEvent := by
  simp [exec, execErpop, h]

theorem State.popEvent_of_nil {s : State} (h : s.eq = []) : s.popEvent = s.doneWith emptyEventWord := by
  simp [State.popEvent, h]

theorem State.popEvent_of_cons {s : State} {e : Event} {rest : List Event} (h : s.eq = e :: rest) :
    s.popEvent = (s.withEq rest).doneWith e.word := by
  simp [State.popEvent, h]

@[simp] theorem State.answers_doneWith {s : State} {v w : Word} :
    (s.doneWith v).answers .none (some w) ↔ v = w := by
  simp [State.answers]

/-- `valid` is 0 exactly in the answer of a pop that found the queue empty (30_encoding.md R64). -/
theorem State.popEvent_valid {s : State} {w : Word} (h : s.popEvent.answers .none (some w)) :
    w.getLsbD 15 = false ↔ s.eq = [] := by
  cases hq : s.eq with
  | nil =>
    rw [State.popEvent_of_nil hq, State.answers_doneWith] at h
    exact iff_of_true (h ▸ emptyEventWord_valid) rfl
  | cons e rest =>
    rw [State.popEvent_of_cons hq, State.answers_doneWith] at h
    simp [← h, e.word_valid]

/-- Settles O10: the fields are the parts of the appended word, and ERPOP in Ready is `popEvent`. -/
theorem eventWordFields : Obligations.EventWordFields := by
  refine ⟨fun e => ⟨e.word_col, e.word_row, e.word_output, e.word_zeros, e.word_valid⟩, ?_, rfl, rfl, rfl⟩
  rintro s w hp ⟨t, ht, ha⟩
  rw [exec_erpop_of_ready hp] at ht
  cases ht
  exact State.popEvent_valid ha

end Sys2Proof.Machine
end

section
/-! The Debouncer (40_debouncer.md R81 to R96): its timestep in terms of a polarity, runs that hold, alternate or vote a
sample, and the theorems that settle O11 to O19. -/

namespace Sys2Proof.Machine

/-! ### Polarities: each state is the steady or the transient state of the polarity it outputs -/

@[simp] theorem Fsm.out_steadyOf (o : Level) : (Fsm.steadyOf o).out = o := by cases o <;> rfl

@[simp] theorem Fsm.out_transientTo (o : Level) : (Fsm.transientTo o).out = o := by cases o <;> rfl

theorem Fsm.out_eq_true (f : Fsm) : f.out = true ↔ f = .transientLoHi ∨ f = .steadyHi := by cases f <;> decide

theorem Fsm.steady_or_transient (f : Fsm) : f = Fsm.steadyOf f.out ∨ f = Fsm.transientTo f.out := by
  cases f <;> decide

theorem Fsm.steadyOf_ne_transientTo (o p : Level) : Fsm.steadyOf o ≠ Fsm.transientTo p := by
  revert o p; decide

theorem Fsm.steadyOf_not_ne (o : Level) : Fsm.steadyOf (!o) ≠ Fsm.steadyOf o := by revert o; decide

theorem Fsm.transientTo_not_ne (o : Level) : Fsm.transientTo (!o) ≠ Fsm.transientTo o := by revert o; decide

/-- The counter is saturated on the side of the polarity. -/
theorem Debouncer.initial_eq (S : Int) (o : Level) :
    Debouncer.initial S o = { fsm := Fsm.steadyOf o, cnt := vote o * S } := by
  cases o <;> simp [Debouncer.initial, vote]

@[simp] theorem vote_true : vote true = 1 := rfl

@[simp] theorem vote_false : vote false = -1 := rfl

theorem vote_not (o : Level) : vote (!o) = -vote o := by cases o <;> rfl

@[simp] theorem vote_mul_vote (o : Level) : vote o * vote o = 1 := by cases o <;> rfl

/-- Settles O11: every state after any sequence outputs what the state alone says. -/
theorem outputOfState : Obligations.OutputOfState :=
  ⟨⟨rfl, rfl, rfl, rfl, fun o => by simp⟩, fun _ _ _ _ => Fsm.out_eq_true _⟩

/-! ### The saturating step (R82) -/

/-- A sum that a CW-bit two's-complement register can hold is what the adder gives. -/
theorem cntRegister_toInt {cw : Nat} {k : Int} (h1 : -(2 ^ cw : Nat) ≤ k * 2) (h2 : k * 2 < (2 ^ cw : Nat)) :
    (cntRegister cw k).toInt = k := by
  rw [cntRegister, BitVec.toInt_ofInt, Int.bmod_eq_of_le_mul_two h1 h2]

theorem cntRegister_add (cw : Nat) (j k : Int) : cntRegister cw j + cntRegister cw k = cntRegister cw (j + k) :=
  (BitVec.ofInt_add j k).symm

theorem cntRegister_sub (cw : Nat) (j k : Int) : cntRegister cw j - cntRegister cw k = cntRegister cw (j - k) := by
  rw [BitVec.sub_eq_iff_eq_add, cntRegister_add, Int.sub_add_cancel]

@[simp] theorem stepCounter_true (S k : Int) : stepCounter S k true = satInc S k := rfl

@[simp] theorem stepCounter_false (S k : Int) : stepCounter S k false = satDec S k := rfl

theorem satInc_eq_ite {S k : Int} (h : k ≤ S) : satInc S k = if k = S then S else k + 1 := by
  unfold satInc; split <;> omega

theorem satDec_eq_ite {S k : Int} (h : -S ≤ k) : satDec S k = if k = -S then -S else k - 1 := by
  unfold satDec; split <;> omega

theorem stepCounter_bounds {S k : Int} (x : Level) (h1 : -S ≤ k) (h2 : k ≤ S) :
    -S ≤ stepCounter S k x ∧ stepCounter S k x ≤ S := by
  have := stepCounter_cases x h1 h2
  omega

/-- Settles O12: the forms of the step are lemmas above, and a register wide enough for S + 1 holds both sums. -/
theorem saturatingStep : Obligations.SaturatingStep := by
  intro S k h1 h2
  refine ⟨rfl, rfl, fun x => stepCounter_bounds x h1 h2, rfl, rfl, satInc_eq_ite h2, satDec_eq_ite h1, by omega,
    fun cw hcw => ?_⟩
  rw [cntRegister_add, cntRegister_sub]
  exact ⟨cntRegister_toInt (by omega) (by omega), cntRegister_toInt (by omega) (by omega)⟩

/-! ### The edges of the transition table, whatever the counter (R85, R87) -/

/-- The transition out of a steady state, for both polarities. -/
theorem transition_steadyOf (S T : Int) (o : Level) (k1 : Int) :
    transition S T (Fsm.steadyOf o) k1 =
      if vote o * k1 ≤ S - T then ({ fsm := Fsm.transientTo (!o), cnt := 0 }, true)
      else ({ fsm := Fsm.steadyOf o, cnt := k1 }, false) := by
  cases o
  · exact if_congr (by simp; omega) rfl rfl
  · exact if_congr (by simp) rfl rfl

/-- The transition out of a transient state, for both polarities. -/
theorem transition_transientTo (S T : Int) (o : Level) (k1 : Int) :
    transition S T (Fsm.transientTo o) k1 =
      if k1 = vote o * S then ({ fsm := Fsm.steadyOf o, cnt := k1 }, false)
      else if k1 = -(vote o * S) then ({ fsm := Fsm.steadyOf (!o), cnt := k1 }, true)
      else ({ fsm := Fsm.transientTo o, cnt := k1 }, false) := by
  cases o <;> exact if_congr (by simp [vote]) rfl (if_congr (by simp [vote]) rfl rfl)

/-- A steady state is kept silently, or left for the transient state of the other polarity with a report. -/
theorem Debouncer.update_of_steady {S T : Int} {d : Debouncer} {o : Level} (x : Level) (h : d.fsm = Fsm.steadyOf o) :
    ((d.update S T x).1.fsm = Fsm.steadyOf o ∧ (d.update S T x).2 = false) ∨
    ((d.update S T x).1.fsm = Fsm.transientTo (!o) ∧ (d.update S T x).2 = true) := by
  rw [Debouncer.update, h, transition_steadyOf]
  split
  · exact .inr ⟨rfl, rfl⟩
  · exact .inl ⟨rfl, rfl⟩

/-- A transient state is kept silently, confirmed silently, or reversed with a report. -/
theorem Debouncer.update_of_transient {S T : Int} {d : Debouncer} {o : Level} (x : Level)
    (h : d.fsm = Fsm.transientTo o) :
    ((d.update S T x).1.fsm = Fsm.transientTo o ∧ (d.update S T x).2 = false) ∨
    ((d.update S T x).1.fsm = Fsm.steadyOf o ∧ (d.update S T x).2 = false) ∨
    ((d.update S T x).1.fsm = Fsm.steadyOf (!o) ∧ (d.update S T x).2 = true) := by
  rw [Debouncer.update, h, transition_transientTo]
  split
  · exact .inr (.inl ⟨rfl, rfl⟩)
  · split
    · exact .inr (.inr ⟨rfl, rfl⟩)
    · exact .inl ⟨rfl, rfl⟩

/-- The path sentence of R85: a run between the steady states passes through the transient state of its direction. -/
theorem Debouncer.feed_passes_transient {S T : Int} {o : Level} (xs : List Level) :
    ∀ d : Debouncer, d.fsm = Fsm.steadyOf (!o) → (d.feed S T xs).fsm = Fsm.steadyOf o →
      ∃ ys zs : List Level, xs = ys ++ zs ∧ (d.feed S T ys).fsm = Fsm.transientTo o := by
  induction xs with
  | nil => exact fun d h he => absurd (h.symm.trans he) (Fsm.steadyOf_not_ne o)
  | cons x xs ih =>
    intro d h he
    rcases d.update_of_steady (S := S) (T := T) x h with ⟨hk, -⟩ | ⟨ht, -⟩
    · obtain ⟨ys, zs, rfl, hys⟩ := ih _ hk he
      exact ⟨x :: ys, zs, rfl, hys⟩
    · exact ⟨[x], xs, rfl, by simpa using ht⟩

/-- Settles O13: the rows are the branches of `transition`, and the edges and the path are lemmas above. -/
theorem transitionTable : Obligations.TransitionTable := by
  intro S T hT hTS
  refine ⟨fun k x _ _ => ?_, fun d x o => ⟨fun h => ?_, fun h => ?_⟩, fun d xs o => d.feed_passes_transient xs,
    rfl, rfl, rfl, rfl⟩
  · simp only [Debouncer.update_mk]
    generalize stepCounter (S : Int) k x = k1
    refine ⟨fun h => ?_, fun h => ?_, fun h => ?_, fun h => ?_, fun h => ?_, fun h => ?_, fun h => ?_, fun h => ?_,
      fun h => ?_, fun h => ?_⟩
    · exact if_neg (by omega)
    · exact if_pos h
    · exact (if_neg (by omega)).trans (if_neg (by omega))
    · subst h; exact if_pos rfl
    · subst h; exact (if_neg (by omega)).trans (if_pos rfl)
    · exact if_neg (by omega)
    · exact if_pos h
    · exact (if_neg (by omega)).trans (if_neg (by omega))
    · subst h; exact if_pos rfl
    · subst h; exact (if_neg (by omega)).trans (if_pos rfl)
  · rcases d.update_of_steady (S := S) (T := T) x h with ⟨e, -⟩ | ⟨e, -⟩ <;> rw [e]
    · exact (Fsm.steadyOf_not_ne o).symm
    · exact (Fsm.steadyOf_ne_transientTo _ _).symm
  · rcases d.update_of_transient (S := S) (T := T) x h with ⟨e, -⟩ | ⟨e, -⟩ | ⟨e, -⟩ <;> rw [e]
    · exact (Fsm.transientTo_not_ne o).symm
    · exact Fsm.steadyOf_ne_transientTo _ _
    · exact Fsm.steadyOf_ne_transientTo _ _

theorem Debouncer.changed_iff_out_ne (S T : Int) (d : Debouncer) (x : Level) :
    (d.update S T x).2 = true ↔ (d.update S T x).1.fsm.out ≠ d.fsm.out := by
  rcases d.fsm.steady_or_transient with h | h
  · rcases d.update_of_steady (S := S) (T := T) x h with ⟨e, c⟩ | ⟨e, c⟩ <;> simp [e, c]
  · rcases d.update_of_transient (S := S) (T := T) x h with ⟨e, c⟩ | ⟨e, c⟩ | ⟨e, c⟩ <;> simp [e, c]

/-- Settles O14: each clause about an edge compares the outputs at its two ends. -/
theorem changedIffOutputFlips : Obligations.ChangedIffOutputFlips := by
  intro S T _ _ d x
  have hc := d.changed_iff_out_ne S T x
  refine ⟨hc, fun h => ?_, fun o h h' => ?_, fun o h h' => ?_, fun o h h' => ?_⟩
  · simpa [h] using hc
  · simpa [h, h'] using hc
  · simpa [h, h'] using hc
  · simpa [h, h'] using hc

/-! ### The mirror (R96) -/

@[simp] theorem Fsm.mirror_steadyOf (o : Level) : (Fsm.steadyOf o).mirror = Fsm.steadyOf (!o) := by cases o <;> rfl

@[simp] theorem Fsm.mirror_transientTo (o : Level) : (Fsm.transientTo o).mirror = Fsm.transientTo (!o) := by
  cases o <;> rfl

theorem stepCounter_neg (S k : Int) (x : Level) : stepCounter S (-k) (!x) = -stepCounter S k x := by
  cases x
  · simp only [stepCounter_true, stepCounter_false, Bool.not_false, satInc, satDec]; omega
  · simp only [stepCounter_true, stepCounter_false, Bool.not_true, satInc, satDec]; omega

theorem transition_mirror (S T : Int) (f : Fsm) (k : Int) :
    transition S T f.mirror (-k) = ((transition S T f k).1.mirror, (transition S T f k).2) := by
  rcases f.steady_or_transient with h | h <;> rw [h]
  · rw [Fsm.mirror_steadyOf, transition_steadyOf, transition_steadyOf, vote_not, neg_mul_neg]
    split
    · simp [Debouncer.mirror]
    · simp [Debouncer.mirror]
  · rw [Fsm.mirror_transientTo, transition_transientTo, transition_transientTo, vote_not]
    simp only [neg_mul, neg_inj]
    split
    · simp [Debouncer.mirror]
    · split
      · simp [Debouncer.mirror]
      · simp [Debouncer.mirror]

/-- Settles O19: the stepped counter and the transition are each their own mirror image. -/
theorem mirrorLaw : Obligations.MirrorLaw := by
  intro S T d x
  rw [Debouncer.update, Debouncer.mirror, stepCounter_neg, transition_mirror]
  rfl

/-! ### The reachable set (R90) -/

theorem Debouncer.reach_initial {S T : Nat} (hT : 0 < T) (o : Level) : Reach S T (Debouncer.initial S o) := by
  cases o <;> simp [Debouncer.initial, Fsm.steadyOf, Reach] <;> omega

theorem Reach.feed {S T : Nat} (hT : 0 < T) (hTS : T < S) (xs : List Level) :
    ∀ {d : Debouncer}, Reach S T d → Reach S T (d.feed S T xs) := by
  induction xs with
  | nil => exact id
  | cons x xs ih => exact fun h => ih (h.update hT hTS x)

/-- Settles O15, by `Reach.update` along the sequence. -/
theorem rangeLaw : Obligations.RangeLaw := fun _ _ hT hTS =>
  ⟨fun o => Debouncer.reach_initial hT o, fun _ xs h => ⟨h.feed hT hTS xs, (h.feed hT hTS xs).bounds hTS⟩⟩

/-- The reachable pairs in terms of the polarity of the state. -/
theorem Reach.steady_or_transient {S T : Nat} {d : Debouncer} (h : Reach S T d) :
    ∃ (o : Level) (k : Int),
      (d = { fsm := Fsm.steadyOf o, cnt := vote o * k } ∧ (S : Int) - T < k ∧ k ≤ S) ∨
      (d = { fsm := Fsm.transientTo o, cnt := k } ∧ -(S : Int) < k ∧ k < S) := by
  obtain ⟨f, k⟩ := d
  cases f <;> simp only [Reach] at h
  case steadyLo => exact ⟨false, -k, .inl ⟨by simp [Fsm.steadyOf, vote], by omega⟩⟩
  case transientLoHi => exact ⟨true, k, .inr ⟨rfl, by omega⟩⟩
  case steadyHi => exact ⟨true, k, .inl ⟨by simp [Fsm.steadyOf, vote], by omega⟩⟩
  case transientHiLo => exact ⟨false, k, .inr ⟨rfl, by omega⟩⟩

/-! ### The timestep of a reachable pair, for both polarities at once -/

/-- A sample steps the counter towards the bound of its polarity. -/
theorem stepCounter_same (S k : Int) (o : Level) : stepCounter S (vote o * k) o = vote o * min (k + 1) S := by
  cases o
  · simp only [stepCounter_false, satDec, vote_false]; omega
  · simp only [stepCounter_true, satInc, vote_true, one_mul]

/-- The opposite sample steps it away from there. -/
theorem stepCounter_opposite {S k : Int} (o : Level) (h : -S < k) :
    stepCounter S (vote o * k) (!o) = vote o * (k - 1) := by
  cases o
  · simp only [Bool.not_false, stepCounter_true, satInc, vote_false]; omega
  · simp only [Bool.not_true, stepCounter_false, satDec, vote_true]; omega

/-- Strictly between the bounds the counter takes the vote of the sample. -/
theorem stepCounter_inside {S k : Int} (x : Level) (h1 : -S < k) (h2 : k < S) : stepCounter S k x = k + vote x := by
  cases x
  · simp only [stepCounter_false, satDec, vote_false]; omega
  · simp only [stepCounter_true, satInc, vote_true]; omega

/-- A sample of the state's own polarity moves a steady counter one step towards its bound. -/
theorem Debouncer.update_steady_same {S T : Int} (o : Level) {k : Int} (hT : 0 < T) (h : S - T < k) :
    Debouncer.update S T { fsm := Fsm.steadyOf o, cnt := vote o * k } o =
      ({ fsm := Fsm.steadyOf o, cnt := vote o * min (k + 1) S }, false) := by
  rw [Debouncer.update_mk, stepCounter_same, transition_steadyOf, ← mul_assoc, vote_mul_vote, one_mul]
  exact if_neg (by omega)

/-- A sample of the opposite polarity moves a steady counter one step away from its bound; T steps away from it the
state is left. -/
theorem Debouncer.update_steady_opposite {S : Int} (T : Int) (o : Level) {k : Int} (h : -S < k) :
    Debouncer.update S T { fsm := Fsm.steadyOf o, cnt := vote o * k } (!o) =
      if k - 1 ≤ S - T then ({ fsm := Fsm.transientTo (!o), cnt := 0 }, true)
      else ({ fsm := Fsm.steadyOf o, cnt := vote o * (k - 1) }, false) := by
  rw [Debouncer.update_mk, stepCounter_opposite o h, transition_steadyOf, ← mul_assoc, vote_mul_vote, one_mul]

/-- A transient counter takes the vote of the sample and stays in the state while it is strictly between the bounds. -/
theorem Debouncer.update_transient_stay {S : Int} (T : Int) (o : Level) {x : Level} {k : Int}
    (hk : -S < k ∧ k < S) (h : -S < k + vote x ∧ k + vote x < S) :
    Debouncer.update S T { fsm := Fsm.transientTo o, cnt := k } x =
      ({ fsm := Fsm.transientTo o, cnt := k + vote x }, false) := by
  rw [Debouncer.update_mk, stepCounter_inside x hk.1 hk.2, transition_transientTo]
  have hne : ¬(k + vote x = vote o * S) ∧ ¬(k + vote x = -(vote o * S)) := by
    cases o <;> simp only [vote_true, vote_false] <;> omega
  exact (if_neg hne.1).trans (if_neg hne.2)

/-- At a bound it leaves for the steady state of the sample: a reversal when the sample opposes the state. -/
theorem Debouncer.update_transient_leave {S : Int} (T : Int) (o : Level) {x : Level} {k : Int}
    (hk : -S < k ∧ k < S) (h : k + vote x = vote x * S) :
    Debouncer.update S T { fsm := Fsm.transientTo o, cnt := k } x = (Debouncer.initial S x, x != o) := by
  rw [Debouncer.update_mk, stepCounter_inside x hk.1 hk.2, transition_transientTo, h, Debouncer.initial_eq]
  rcases Bool.eq_or_eq_not x o with rfl | rfl
  · simp
  · have hne : ¬(vote (!o) * S = vote o * S) := by
      rw [vote_not]
      cases o <;> simp only [vote_true, vote_false] <;> omega
    rw [if_neg hne]
    simp [vote_not]

/-! ### Holding the sample at the output's polarity (R92) -/

/-- A sample of the output's polarity reports nothing and brings the counter one step nearer the bound. -/
theorem Reach.update_out {S T : Nat} {d : Debouncer} {o : Level} (hT : 0 < T) (h : Reach S T d) (ho : d.fsm.out = o) :
    (d.update S T o).2 = false ∧ (d.update S T o).1.fsm.out = o ∧
    vote o * (d.update S T o).1.cnt = min (vote o * d.cnt + 1) S := by
  obtain ⟨p, k, ⟨rfl, h1, h2⟩ | ⟨rfl, h1, h2⟩⟩ := h.steady_or_transient
  · obtain rfl : p = o := by simpa using ho
    rw [Debouncer.update_steady_same p (by omega) h1]
    simp [← mul_assoc]
  · obtain rfl : p = o := by simpa using ho
    by_cases hl : k + vote p = vote p * S
    · rw [Debouncer.update_transient_leave _ p ⟨h1, h2⟩ hl]
      refine ⟨by simp, by simp [Debouncer.initial_eq], ?_⟩
      rw [Debouncer.initial_eq, ← mul_assoc, vote_mul_vote]
      cases p <;> simp only [vote_true, vote_false] at hl ⊢ <;> omega
    · have hs : -(S : Int) < k + vote p ∧ k + vote p < S := by
        cases p <;> simp only [vote_true, vote_false] at hl ⊢ <;> omega
      rw [Debouncer.update_transient_stay _ p ⟨h1, h2⟩ hs]
      refine ⟨rfl, by simp, ?_⟩
      cases p <;> simp only [vote_true, vote_false] at hs ⊢ <;> omega

/-- Holding the sample keeps the output, reports nothing and counts up to the bound. -/
theorem Reach.hold {S T : Nat} {o : Level} (hT : 0 < T) (hTS : T < S) (n : Nat) :
    ∀ {d : Debouncer}, Reach S T d → d.fsm.out = o →
      d.changes S T (List.replicate n o) = List.replicate n false ∧
      (d.feed S T (List.replicate n o)).fsm.out = o ∧
      vote o * (d.feed S T (List.replicate n o)).cnt = min (vote o * d.cnt + n) S := by
  induction n with
  | zero =>
    intro d h ho
    have hb := h.bounds hTS
    refine ⟨rfl, ho, ?_⟩
    cases o <;> simp only [List.replicate_zero, Debouncer.feed_nil, vote_true, vote_false] <;> omega
  | succ n ih =>
    intro d h ho
    obtain ⟨hc, ho', hk⟩ := h.update_out hT ho
    obtain ⟨ihc, iho, ihk⟩ := ih (h.update hT hTS o) ho'
    refine ⟨by simp [List.replicate_succ, hc, ihc], iho, ?_⟩
    rw [List.replicate_succ, Debouncer.feed_cons, ihk, hk]
    omega

/-- A reachable pair whose counter is at the bound of its output's polarity is the saturated steady state. -/
theorem Reach.eq_initial {S T : Nat} {d : Debouncer} {o : Level} (h : Reach S T d) (ho : d.fsm.out = o)
    (hk : vote o * d.cnt = S) : d = Debouncer.initial S o := by
  obtain ⟨p, k, ⟨rfl, h1, h2⟩ | ⟨rfl, h1, h2⟩⟩ := h.steady_or_transient
  · obtain rfl : p = o := by simpa using ho
    rw [← mul_assoc, vote_mul_vote, one_mul] at hk
    rw [Debouncer.initial_eq, hk]
  · exfalso
    cases o <;> simp only [vote_true, vote_false] at hk <;> omega

/-- The number of samples to the bound, with the polarity as a sign. -/
theorem settling_count (S k : Int) (o : Level) : (if o then S - k else S + k) = S - vote o * k := by
  cases o <;> simp

/-- The three bounds on that number: from a steady state, from a transient state with the counter on the output's side,
and from any reachable pair. -/
theorem Reach.settling_bounds {S T : Nat} {d : Debouncer} {o : Level} (hT : T < S) (h : Reach S T d)
    (ho : d.fsm.out = o) :
    (d.fsm = Fsm.steadyOf o → (S : Int) - vote o * d.cnt ≤ T - 1) ∧
    (d.fsm = Fsm.transientTo o → (if o then 0 ≤ d.cnt else d.cnt ≤ 0) → (S : Int) - vote o * d.cnt ≤ S) ∧
    (S : Int) - vote o * d.cnt ≤ 2 * S - 1 := by
  obtain ⟨p, k, ⟨rfl, h1, h2⟩ | ⟨rfl, h1, h2⟩⟩ := h.steady_or_transient
  · obtain rfl : p = o := by simpa using ho
    simp only [← mul_assoc, vote_mul_vote, one_mul]
    exact ⟨fun _ => by omega, fun e => absurd e (Fsm.steadyOf_ne_transientTo _ _), by omega⟩
  · obtain rfl : p = o := by simpa using ho
    refine ⟨fun e => absurd e.symm (Fsm.steadyOf_ne_transientTo _ _), fun _ hk => ?_, ?_⟩
    · cases p <;> simp at hk ⊢ <;> omega
    · cases p <;> simp only [vote_true, vote_false] <;> omega

/-- Settles O16: after n0 samples the held counter is at the bound, and the farthest pair lies one step inside the
other. -/
theorem settlingLaw : Obligations.SettlingLaw := by
  intro S T hT hTS d h
  simp only [settling_count]
  obtain ⟨hsteady, htransient, hall⟩ := h.settling_bounds hTS rfl
  refine ⟨fun n => ?_, hsteady, htransient, hall, fun hd => ?_⟩
  · obtain ⟨hc, ho, hk⟩ := h.hold hT hTS n rfl
    exact ⟨hc, fun hn => (h.feed hT hTS _).eq_initial ho (by omega)⟩
  · have hcnt : d.cnt = if d.fsm.out then -(S : Int) + 1 else S - 1 := congrArg Debouncer.cnt hd
    rw [hcnt]
    cases d.fsm.out <;> simp <;> omega

/-! ### Running sums of votes (R93, R94) -/

theorem votes_cons (x : Level) (xs : List Level) : votes (x :: xs) = vote x + votes xs := by simp [votes]

theorem votes_concat (xs : List Level) (x : Level) : votes (xs ++ [x]) = votes xs + vote x := by simp [votes]

theorem votes_replicate (n : Nat) (x : Level) : votes (List.replicate n x) = n * vote x := by simp [votes]

/-- Every running sum of the votes, the whole sum among them, is strictly between the bounds. -/
def VotesInside (S : Int) (xs : List Level) : Prop := ∀ ys, ys <+: xs → -S < votes ys ∧ votes ys < S

theorem VotesInside.of_concat {S : Int} {xs : List Level} {x : Level} (h : VotesInside S (xs ++ [x])) :
    VotesInside S xs := fun _ hys => h _ (hys.trans (List.prefix_append xs [x]))

theorem votesInside_replicate {S n : Nat} (h : n < S) (x : Level) : VotesInside S (List.replicate n x) := by
  intro ys hys
  obtain ⟨hn, hys⟩ := List.prefix_replicate_iff.1 hys
  rw [hys, votes_replicate]
  cases x <;> simp only [vote_true, vote_false] <;> omega

/-- While the running sums stay inside, a fresh transient state is kept, reports nothing and holds the sum. -/
theorem Debouncer.feed_transient {S : Int} (T : Int) (o : Level) {xs : List Level} (h : VotesInside S xs) :
    Debouncer.feed S T { fsm := Fsm.transientTo o, cnt := 0 } xs = { fsm := Fsm.transientTo o, cnt := votes xs } ∧
    Debouncer.changes S T { fsm := Fsm.transientTo o, cnt := 0 } xs = List.replicate xs.length false := by
  induction xs using List.reverseRecOn with
  | nil => exact ⟨rfl, rfl⟩
  | append_singleton xs x ih =>
    obtain ⟨ihf, ihc⟩ := ih h.of_concat
    have hx := h _ List.prefix_rfl
    rw [votes_concat] at hx
    have hu := Debouncer.update_transient_stay T o (h.of_concat _ List.prefix_rfl) hx
    rw [Debouncer.feed_append, Debouncer.changes_append, ihf, ihc]
    simp [hu, votes_concat, List.replicate_succ']

/-- The sample that brings the sum to a bound enters the steady state of that bound, with a report when it opposes the
state. -/
theorem Debouncer.feed_transient_leave {S : Int} (T : Int) (o : Level) {xs : List Level} {x : Level}
    (h : VotesInside S xs) (hx : votes xs + vote x = vote x * S) :
    Debouncer.feed S T { fsm := Fsm.transientTo o, cnt := 0 } (xs ++ [x]) = Debouncer.initial S x ∧
    Debouncer.changes S T { fsm := Fsm.transientTo o, cnt := 0 } (xs ++ [x]) =
      List.replicate xs.length false ++ [x != o] := by
  obtain ⟨hf, hc⟩ := Debouncer.feed_transient T o h
  have hu := Debouncer.update_transient_leave T o (h _ List.prefix_rfl) hx
  rw [Debouncer.feed_append, Debouncer.changes_append, hf, hc]
  simp [hu]

/-- S equal samples take a fresh transient state to their own steady state (R94). -/
theorem Debouncer.feed_transient_replicate {S : Nat} (T : Int) (hS : 0 < S) (o x : Level) :
    Debouncer.feed S T { fsm := Fsm.transientTo o, cnt := 0 } (List.replicate S x) = Debouncer.initial S x ∧
    Debouncer.changes S T { fsm := Fsm.transientTo o, cnt := 0 } (List.replicate S x) =
      List.replicate (S - 1) false ++ [x != o] := by
  obtain ⟨n, rfl⟩ := Nat.exists_eq_add_one.2 hS
  have hx : votes (List.replicate n x) + vote x = vote x * (n + 1 : Nat) := by
    rw [votes_replicate]; push_cast; ring
  simpa [List.replicate_succ'] using
    Debouncer.feed_transient_leave T o (votesInside_replicate (Nat.lt_succ_self n) x) hx

/-! ### The latency law (R94) -/

/-- A saturated steady state withstands fewer than T opposite samples. -/
theorem Debouncer.feed_opposite {S T : Nat} (hTS : T < S) (o : Level) {j : Nat} (hj : j < T) :
    (Debouncer.initial S (!o)).feed S T (List.replicate j o) =
      { fsm := Fsm.steadyOf (!o), cnt := vote (!o) * (S - j) } ∧
    (Debouncer.initial S (!o)).changes S T (List.replicate j o) = List.replicate j false := by
  induction j with
  | zero => simp [Debouncer.initial_eq]
  | succ j ih =>
    obtain ⟨ihf, ihc⟩ := ih (by omega)
    have hu := Debouncer.update_steady_opposite (S := S) T (!o) (k := S - j) (by omega)
    rw [Bool.not_not, if_neg (by omega)] at hu
    rw [List.replicate_succ', Debouncer.feed_append, Debouncer.changes_append, ihf, ihc]
    simp [hu, List.replicate_succ', sub_sub]

/-- The T-th opposite sample reports the change and enters the fresh transient state. -/
theorem Debouncer.feed_opposite_leave {S T : Nat} (hT : 0 < T) (hTS : T < S) (o : Level) :
    (Debouncer.initial S (!o)).feed S T (List.replicate T o) = { fsm := Fsm.transientTo o, cnt := 0 } ∧
    (Debouncer.initial S (!o)).changes S T (List.replicate T o) = List.replicate (T - 1) false ++ [true] := by
  obtain ⟨n, rfl⟩ := Nat.exists_eq_add_one.2 hT
  obtain ⟨hf, hc⟩ := Debouncer.feed_opposite hTS o (Nat.lt_succ_self n)
  have hu := Debouncer.update_steady_opposite (S := S) (n + 1 : Nat) (!o) (k := S - n) (by omega)
  rw [Bool.not_not, if_pos (by push_cast; omega)] at hu
  rw [List.replicate_succ', Debouncer.feed_append, Debouncer.changes_append, hf, hc]
  simp only [Debouncer.feed_cons, Debouncer.changes_cons, hu]
  simp

/-- The running-sum law: a fresh transient state is left exactly when the sum of the votes first reaches a bound. -/
theorem Debouncer.feed_transient_votes {S : Nat} (T : Int) (hS : 0 < S) (o : Level) (xs : List Level)
    (h : ∀ ys zs : List Level, xs = ys ++ zs → zs ≠ [] → -(S : Int) < votes ys ∧ votes ys < S) :
    (-(S : Int) < votes xs ∧ votes xs < S →
      Debouncer.feed S T { fsm := Fsm.transientTo o, cnt := 0 } xs = { fsm := Fsm.transientTo o, cnt := votes xs }) ∧
    (votes xs = S → Debouncer.feed S T { fsm := Fsm.transientTo o, cnt := 0 } xs = Debouncer.initial S true) ∧
    (votes xs = -(S : Int) →
      Debouncer.feed S T { fsm := Fsm.transientTo o, cnt := 0 } xs = Debouncer.initial S false) := by
  refine ⟨fun hxs => ?_, ?_⟩
  · refine (Debouncer.feed_transient T o fun ys hys => ?_).1
    obtain ⟨zs, rfl⟩ := hys
    rcases eq_or_ne zs [] with rfl | hz
    · simpa using hxs
    · exact h ys zs rfl hz
  · rcases List.eq_nil_or_concat' xs with rfl | ⟨ws, x, rfl⟩
    · simp; omega
    · have hin : VotesInside S ws := by
        rintro ys ⟨zs, rfl⟩
        exact h ys (zs ++ [x]) (by simp) (by simp)
      have hws := hin ws List.prefix_rfl
      rw [votes_concat]
      cases x with
      | false => exact ⟨fun hv => by simp at hv; omega, fun hv => (feed_transient_leave T o hin (by simpa using hv)).1⟩
      | true => exact ⟨fun hv => (feed_transient_leave T o hin (by simpa using hv)).1, fun hv => by simp at hv; omega⟩

/-- Settles O18: T samples lead to the fresh transient state, and S more of either polarity lead out of it. -/
theorem latencyLaw : Obligations.LatencyLaw := by
  intro S T hT hTS o
  have hS : 0 < S := hT.trans hTS
  obtain ⟨hf, hc⟩ := Debouncer.feed_opposite_leave hT hTS o
  obtain ⟨hfc, hcc⟩ := Debouncer.feed_transient_replicate T hS o o
  obtain ⟨hfr, hcr⟩ := Debouncer.feed_transient_replicate T hS o (!o)
  simp only [← List.replicate_append_replicate, Debouncer.feed_append, Debouncer.changes_append, hf, hc]
  refine ⟨?_, trivial, fun j hj => ?_, hfc, by simpa using hcr, hfr, Debouncer.feed_transient_votes T hS o⟩
  · obtain ⟨n, rfl⟩ := Nat.exists_eq_add_one.2 hS
    rw [hcc]
    simp [List.replicate_succ']
  · rw [(Debouncer.feed_transient T o (votesInside_replicate hj o)).1]

/-! ### Alternating samples (R93) -/

/-- The steady pair one step inside the bound. -/
def Debouncer.oneInside (S : Int) (o : Level) : Debouncer := { fsm := Fsm.steadyOf o, cnt := vote o * (S - 1) }

theorem Debouncer.update_initial_same (S : Int) {T : Int} (hT : 0 < T) (o : Level) :
    (Debouncer.initial S o).update S T o = (Debouncer.initial S o, false) := by
  rw [Debouncer.initial_eq, Debouncer.update_steady_same o hT (by omega), min_eq_right (by omega)]

theorem Debouncer.update_oneInside_same (S : Int) {T : Int} (hT : 2 ≤ T) (o : Level) :
    (Debouncer.oneInside S o).update S T o = (Debouncer.initial S o, false) := by
  rw [Debouncer.oneInside, Debouncer.update_steady_same o (by omega) (by omega), min_eq_right (by omega),
    Debouncer.initial_eq]

theorem Debouncer.update_initial_opposite {S T : Int} (hS : 0 < S) (hT : 2 ≤ T) (o : Level) :
    (Debouncer.initial S o).update S T (!o) = (Debouncer.oneInside S o, false) := by
  rw [Debouncer.initial_eq, Debouncer.update_steady_opposite T o (by omega), if_neg (by omega), Debouncer.oneInside]

/-- With T ≥ 2 an alternation moves a saturated counter one step inside the bound and back. -/
theorem Debouncer.feed_alternating_steady {S T : Int} (hS : 0 < S) (hT : 2 ≤ T) (o : Level) (n : Nat) :
    ∀ {d : Debouncer} {b : Level}, d = Debouncer.initial S o ∨ (d = Debouncer.oneInside S o ∧ b = o) →
      (d.feed S T (alternating n b) = Debouncer.initial S o ∨ d.feed S T (alternating n b) = Debouncer.oneInside S o) ∧
      d.changes S T (alternating n b) = List.replicate n false := by
  induction n with
  | zero => exact fun h => ⟨h.imp_right And.left, rfl⟩
  | succ n ih =>
    rintro d b (rfl | ⟨rfl, rfl⟩)
    · rcases Bool.eq_or_eq_not b o with rfl | rfl
      · have hu := Debouncer.update_initial_same S (T := T) (by omega) b
        simpa [alternating, hu, List.replicate_succ] using ih (.inl rfl)
      · have hu := Debouncer.update_initial_opposite hS hT o
        simpa [alternating, hu, List.replicate_succ] using ih (.inr ⟨rfl, rfl⟩)
    · have hu := Debouncer.update_oneInside_same S hT b
      simpa [alternating, hu, List.replicate_succ] using ih (.inl rfl)

@[simp] theorem length_alternating (n : Nat) (b : Level) : (alternating n b).length = n := by
  induction n generalizing b with
  | zero => rfl
  | succ n ih => simp [alternating, ih]

/-- The running sums of an alternation are 0 and its first vote. -/
theorem votes_of_prefix_alternating (n : Nat) :
    ∀ {b : Level} {ys : List Level}, ys <+: alternating n b → votes ys = 0 ∨ votes ys = vote b := by
  induction n with
  | zero => exact fun h => .inl (by rw [List.prefix_nil.1 h, votes_nil])
  | succ n ih =>
    intro b ys h
    rcases List.prefix_cons_iff.1 h with rfl | ⟨zs, rfl, hz⟩
    · exact .inl rfl
    · rw [votes_cons]
      rcases ih hz with h0 | h1
      · exact .inr (by rw [h0, add_zero])
      · exact .inl (by rw [h1, vote_not, add_neg_cancel])

theorem vote_bounds (x : Level) : -1 ≤ vote x ∧ vote x ≤ 1 := by cases x <;> decide

theorem votes_of_prefix_alternating_bounds {n : Nat} {b : Level} {ys : List Level} (h : ys <+: alternating n b) :
    -1 ≤ votes ys ∧ votes ys ≤ 1 := by
  have := vote_bounds b
  have := votes_of_prefix_alternating n h
  omega

/-- Settles O17: with T ≥ 2 by the pair one step inside, with T = 1 by the running sums of the alternation. -/
theorem oscillationLaw : Obligations.OscillationLaw := by
  intro S T hT hTS o n
  refine ⟨fun hT2 b => ?_, by omega, fun hT1 => ?_⟩
  · obtain ⟨hf, hc⟩ := Debouncer.feed_alternating_steady (S := S) (T := T) (by omega) (by omega) o n (b := b) (.inl rfl)
    dsimp only
    refine ⟨?_, hc, ?_⟩
    · rcases hf with e | e <;> rw [e] <;> rfl
    · rcases hf with e | e <;> rw [e]
      · cases o <;> simp [Debouncer.initial]
      · cases o <;> simp [Debouncer.oneInside, neg_add_eq_sub]
  · have hu := Debouncer.update_steady_opposite (S := S) T o (k := S) (by omega)
    rw [if_pos (by omega), ← Debouncer.initial_eq] at hu
    have hin : VotesInside S (alternating n o) := fun ys hys => by
      have := votes_of_prefix_alternating_bounds hys
      omega
    obtain ⟨hf, hc⟩ := Debouncer.feed_transient T (!o) hin
    have hb := votes_of_prefix_alternating_bounds (List.prefix_refl (alternating n o))
    simp [alternating, hu, hf, hc, hb]

end Sys2Proof.Machine
end

section
/-! What a port refuses (60_exceptions.md R153, R155): a word that selects no port operation, and a port operation outside
the phases that serve it; the theorems that settle O5 and O43. -/

namespace Sys2Proof

/-! ### Words that select no port operation -/

/-- The instruction a row makes of its fields is of that row's operation. -/
@[simp] theorem Opcode.opcode_build (o : Opcode) (f : Fields) : (o.build f).opcode = o := by cases o <;> rfl

/-- A word of a micro operation's row is no operation at a port (30_encoding.md R67). -/
theorem decodePort_of_micro {o : Opcode} {w : CmdWord} (h : o.selects w = true) (hm : o.isPort = false) :
    decodePort w = .error (.microAtPort o) := by
  simp [decodePort, decode_of_selects h, hm]

theorem decodePort_error_of_no_port_row {w : CmdWord} (h : ∀ o : Opcode, o.isPort = true → o.selects w = false) :
    ∃ e, decodePort w = .error e := by
  by_cases hsel : ∃ o : Opcode, o.selects w = true
  · obtain ⟨o, ho⟩ := hsel
    have hmicro : o.isPort = false := Bool.eq_false_iff.2 fun hp => by simp [h o hp] at ho
    exact ⟨_, decodePort_of_micro ho hmicro⟩
  · obtain ⟨e, he⟩ := decode_error_of_not_selects (by simpa using hsel)
    exact ⟨e, decodePort_of_error he⟩

end Sys2Proof

namespace Sys2Proof.Machine

/-- Taking a move from the inbox adds only the field `inbox` to a frame. -/
theorem OnlyChanges.of_withInbox {fs gs : List FieldName} {s t : State} {rest : List Slot}
    (h : OnlyChanges fs (s.withInbox rest) t) (hsub : .inbox :: fs ⊆ gs) : OnlyChanges gs s t := by
  intro f hf
  have hkept : f.same (s.withInbox rest) t := h f fun hm => hf (hsub (List.mem_cons_of_mem _ hm))
  cases f
  case inbox => exact absurd (hsub List.mem_cons_self) hf
  all_goals exact hkept

/-- Settles O5: no row selects the word or a micro operation's row does, and the port's decoder takes neither. -/
theorem illegalCommandAtPort : Obligations.IllegalCommandAtPort := by
  intro s w rest hi hnone
  obtain ⟨e, he⟩ := decodePort_error_of_no_port_row hnone
  obtain ⟨hanswer, hframe⟩ := refused_refuse .illegalCommand (s.withInbox rest)
  exact ⟨_, step_port_of_error hi he, rfl, hanswer, hframe.of_withInbox (by decide)⟩

/-! ### The phases that serve an operation -/

/-- The state is one in which the phase rule of 60_exceptions.md R155 lets the operation through; it names no micro
operation. -/
def Served (s : State) : Instr → Prop
  | .init _ => s.phase ≠ .failed ∧ s.busy = false
  | .notify _ | .ssrd _ _ | .ssrdrow _ | .erpop => s.phase = .ready
  | .sbwr _ _ _ | .stop => True
  | .debupd _ _ _ | .debout _ _ | .sswr _ _ _ | .erpush _ _ _ | .sbrd _ _ | .keystep _ _ _ => True

/-- Outside those states an operation is refused, before any other check (60_exceptions.md R155). -/
theorem exec_of_not_served {s : State} {i : Instr} (h : ¬ Served s i) : exec i s = .next (s.refuse .illegalPhase) := by
  cases i with
  | init pol =>
    have hp : s.phase = .failed ∨ s.busy = true := by simpa [Served, imp_iff_not_or] using h
    simp [exec, execInit, hp]
  | notify k => exact if_neg h
  | ssrd r c => exact congrArg _ (if_neg h)
  | ssrdrow r => exact congrArg _ (if_neg h)
  | erpop => exact congrArg _ (if_neg h)
  | _ => exact absurd trivial h

theorem refused_of_not_served {s : State} {i : Instr} (h : ¬ Served s i) :
    ∃ t, exec i s = .next t ∧ Refused .illegalPhase s t :=
  ⟨_, exec_of_not_served h, refused_refuse _ s⟩

/-! ### The answer of an operation that is served -/

theorem State.popEvent_answers (s : State) : ∃ d, s.popEvent.answers .none d := by
  cases hq : s.eq with
  | nil => exact ⟨_, by rw [State.popEvent_of_nil hq]; rfl⟩
  | cons e rest => exact ⟨_, by rw [State.popEvent_of_cons hq]; rfl⟩

/-- A port operation that is served answers status 0, or BadIndex (60_exceptions.md R154). -/
theorem answers_of_served {s t : State} {i : Instr} (hport : i.opcode.isPort = true) (hs : Served s i)
    (h : exec i s = .next t) : (∃ d, t.answers .none d) ∨ t.answers .badIndex none := by
  cases i with
  | init pol =>
    obtain ⟨hp, hb⟩ := hs
    simp only [exec, execInit, hp, hb] at h
    cases h
    exact .inl ⟨_, rfl⟩
  | sbwr k r w =>
    simp only [exec, execSbwr] at h
    split at h
    · split at h <;> cases h
      exact .inl ⟨_, rfl⟩
    · cases h
      exact .inr rfl
  | notify k =>
    simp only [exec, execNotify, if_pos (show s.phase = .ready from hs)] at h
    split at h <;> cases h
    exact .inl ⟨_, rfl⟩
  | ssrd r c =>
    simp only [exec, execSsrd, if_pos (show s.phase = .ready from hs)] at h
    cases h
    split
    · exact .inl ⟨_, rfl⟩
    · exact .inr rfl
  | ssrdrow r =>
    simp only [exec, execSsrdrow, if_pos (show s.phase = .ready from hs)] at h
    cases h
    split
    · exact .inl ⟨_, rfl⟩
    · exact .inr rfl
  | erpop =>
    rw [exec_erpop_of_ready hs] at h
    cases h
    exact .inl s.popEvent_answers
  | stop =>
    simp only [exec, execStop] at h
    cases h
    split <;> exact .inl ⟨_, rfl⟩
  | _ => cases hport

/-- A state holds one answer, so two readings of it have the same status. -/
theorem State.answers.status_eq {t : State} {c c' : Code} {d d' : Option Word} (h : t.answers c d)
    (h' : t.answers c' d') : c.num = c'.num :=
  congrArg Answer.status (Option.some.inj (h.symm.trans h'))

theorem not_illegalPhase_of_served {s t : State} {i : Instr} (hport : i.opcode.isPort = true) (hs : Served s i)
    (h : exec i s = .next t) : ¬ t.answers .illegalPhase none := by
  intro hrefused
  rcases answers_of_served hport hs h with ⟨_, hd⟩ | hbad
  · exact absurd (hd.status_eq hrefused) (by decide)
  · exact absurd (hbad.status_eq hrefused) (by decide)

/-- Settles O43: the clauses are `Served` read operation by operation. -/
theorem illegalPhaseRefused : Obligations.IllegalPhaseRefused := by
  refine ⟨fun s h r c i hi => ?_, fun s pol => ⟨fun hp => ?_, fun hp => ?_⟩, fun s t h r w i hi ht => ?_⟩
  · have hserved : Served s i ↔ s.phase = .ready := by rcases hi with rfl | rfl | rfl | rfl <;> rfl
    have hport : i.opcode.isPort = true := by rcases hi with rfl | rfl | rfl | rfl <;> rfl
    exact ⟨fun hp => refused_of_not_served (mt hserved.1 hp),
      fun hp _ ht => not_illegalPhase_of_served hport (hserved.2 hp) ht⟩
  · exact refused_of_not_served fun ⟨hnf, hidle⟩ => hp.elim hnf (by simp [hidle])
  · exact ⟨_, rfl, not_illegalPhase_of_served (i := .init pol) rfl hp rfl⟩
  · have hserved : Served s i := by rcases hi with rfl | rfl <;> trivial
    have hport : i.opcode.isPort = true := by rcases hi with rfl | rfl <;> rfl
    exact not_illegalPhase_of_served hport hserved ht

end Sys2Proof.Machine
end

section
/-! The command word and its operation (30_encoding.md R65 to R71): the fields of the instruction a row builds, and the
theorems that settle O1, O2, O3 and O7. -/

namespace Sys2Proof

/-! ### Operands and fields -/

@[simp] theorem Half.field_half (f : Fields) : Half.field f.half = f.h := rfl

@[simp] theorem Idx.field_rowIdx (f : Fields) : Idx.field f.rowIdx = f.row := rfl

@[simp] theorem Idx.field_colIdx (f : Fields) : Idx.field f.colIdx = f.col := rfl

/-- A data field whose upper fifteen bits are 0 is the word of its lowest bit. -/
theorem Word.ofLevel_of_rest {d : BitVec 16} (h : d.extractLsb' 1 15 = 0#15) : Word.ofLevel d[0] = d := by
  have hrest : ∀ k : Nat, k < 15 → d.getLsbD (k + 1) = false := fun k hk => by
    have := congrArg (·.getLsbD k) h
    simpa [hk, Nat.add_comm] using this
  apply BitVec.eq_of_getLsbD_eq
  intro k hk
  cases k with
  | zero => exact Word.ofLevel_bit _
  | succ k =>
    rw [hrest k (by omega)]
    cases d[0] <;> simp [Word.ofLevel]

/-- Fields with the row's `OP` and no must-be-zero bit set are those of the instruction the row builds of them. -/
theorem Opcode.fields_build {o : Opcode} {f : Fields} (hop : f.op = o.code) (hz : o.zerosOk f = true) :
    (o.build f).fields = f := by
  obtain ⟨op, z, h, row, col, data⟩ := f
  subst hop
  cases o <;>
    simp [Opcode.zerosOk, Opcode.usesH, Opcode.usesRow, Opcode.usesCol, Opcode.dataUse] at hz <;>
    simp [Opcode.build, Instr.fields, Fields.bare, Fields.level, Word.ofLevel_of_rest, hz]

/-- The fields of an instruction build that instruction. -/
theorem Opcode.build_fields (i : Instr) : i.opcode.build i.fields = i := by
  cases i <;> simp only [Instr.opcode, Opcode.build, Instr.fields, Fields.level, Word.ofLevel_bit] <;> rfl

/-- The encoded word of an instruction passes the decoder's two checks for its row. -/
theorem rowForm (i : Instr) : Laws.RowForm.Statement i := by
  cases i with
  | init pol => exact Laws.RowForm.init pol
  | sbwr h r w => exact Laws.RowForm.sbwr h r w
  | notify h => exact Laws.RowForm.notify h
  | ssrd r c => exact Laws.RowForm.ssrd r c
  | ssrdrow r => exact Laws.RowForm.ssrdrow r
  | erpop => exact Laws.RowForm.erpop
  | stop => exact Laws.RowForm.stop
  | debupd r c b => exact Laws.RowForm.debupd r c b
  | debout r c => exact Laws.RowForm.debout r c
  | sswr r c b => exact Laws.RowForm.sswr r c b
  | erpush r c o => exact Laws.RowForm.erpush r c o
  | sbrd h r => exact Laws.RowForm.sbrd h r
  | keystep h r c => exact Laws.RowForm.keystep h r c

/-- What a word decodes to, row by row. -/
theorem decode_eq_ok_iff {w : CmdWord} {i : Instr} :
    decode w = .ok i ↔ ∃ o : Opcode, o.selects w = true ∧ i = o.build (Fields.unpack w) := by
  constructor
  · intro h
    by_cases hsel : ∃ o : Opcode, o.selects w = true
    · obtain ⟨o, ho⟩ := hsel
      exact ⟨o, ho, Except.ok.inj (h.symm.trans (decode_of_selects ho))⟩
    · obtain ⟨e, he⟩ := decode_error_of_not_selects (by simpa using hsel)
      rw [he] at h
      cases h
  · rintro ⟨o, ho, rfl⟩
    exact decode_of_selects ho

/-- Settles O1: the encoded word passes its row's checks (`rowForm`), and the row builds the operation of its fields. -/
theorem decodeOfEncodeIsIdentity : Obligations.DecodeOfEncodeIsIdentity := by
  intro i
  obtain ⟨hop, hz⟩ := rowForm i
  have hb : i.opcode.build (Fields.unpack (encode i)) = i := by
    rw [encode, Fields.unpack_pack, Opcode.build_fields]
  simp only [decode, hop, hz, if_true, hb]

/-- Settles O2: the word's row passed both checks, so its fields are those of the operation it builds. -/
theorem encodeOfDecodeIsIdentity : Obligations.EncodeOfDecodeIsIdentity := by
  intro w i h
  obtain ⟨o, hsel, rfl⟩ := decode_eq_ok_iff.1 h
  obtain ⟨hop, hz⟩ := (o.selects_iff w).1 hsel
  rw [encode, Opcode.fields_build hop hz, Fields.pack_unpack]

/-- Settles O3. -/
theorem decoderAgreesWithTable : Obligations.DecoderAgreesWithTable := fun _ _ => decode_eq_ok_iff

/-- Settles O7: sixteen closed evaluations of the decoder. -/
theorem commandWordsDecode : Obligations.CommandWordsDecode := by
  unfold Obligations.CommandWordsDecode
  decide

end Sys2Proof
end

section
/-! The micro operations of the engine and the key step (40_debouncer.md, 41_keymatrix.md R100 to R105,
42_statestore.md R120, 43_eventrelay.md R131): what each does to the registers, its frame, and the theorems that
settle O21 to O23, O26 to O28, O32, O35 and O45. -/

namespace Sys2Proof.Machine

/-! ### Frames -/

theorem OnlyChanges.refl (fs : List FieldName) (s : State) : OnlyChanges fs s s := fun f _ => by cases f <;> rfl

theorem FieldName.same.trans {f : FieldName} {s t u : State} (h : f.same s t) (h' : f.same t u) : f.same s u := by
  cases f <;> exact Eq.trans h' h

theorem OnlyChanges.trans {fs gs ks : List FieldName} {s t u : State} (h : OnlyChanges fs s t)
    (h' : OnlyChanges gs t u) (hsub : fs ++ gs ⊆ ks) : OnlyChanges ks s u := fun f hf =>
  (h f fun hm => hf (hsub (List.mem_append_left _ hm))).trans (h' f fun hm => hf (hsub (List.mem_append_right _ hm)))

theorem OnlyChanges.mono {fs gs : List FieldName} {s t : State} (h : OnlyChanges fs s t) (hsub : fs ⊆ gs) :
    OnlyChanges gs s t := fun f hf => h f fun hm => hf (hsub hm)

theorem State.withAnswer_frame (s : State) (a : Option Answer) : OnlyChanges [.answer] s (s.withAnswer a) := by
  intro f hf
  cases f <;> simp [FieldName.same] at hf ⊢

theorem State.withLatch_frame (s : State) (l : Latch) : OnlyChanges [.latch] s (s.withLatch l) := by
  intro f hf
  cases f <;> simp [FieldName.same] at hf ⊢

theorem State.setKey_frame (s : State) (r c : Idx) (d : Debouncer) : OnlyChanges [.keys] s (s.setKey r c d) := by
  intro f hf
  cases f <;> simp [FieldName.same] at hf ⊢

theorem State.opSswr_frame (s : State) (r c : Idx) (b : Level) : OnlyChanges [.ss] s (s.opSswr r c b) := by
  intro f hf
  cases f <;> simp [FieldName.same] at hf ⊢

/-! ### The meanings of the micro operations whose indices name storage -/

section
variable {s : State} {r c : Idx}

theorem exec_debupd (x : Level) (h : inMatrix s.cfg r c = true) :
    exec (.debupd r c x) s = .next (s.opDebupd r c x) := by
  simp [exec, execDebupd, h]

theorem exec_debout (h : inMatrix s.cfg r c = true) : exec (.debout r c) s = .next (s.opDebout r c) := by
  simp [exec, execDebout, h]

theorem exec_sswr (b : Level) (h : inMatrix s.cfg r c = true) : exec (.sswr r c b) s = .next (s.opSswr r c b) := by
  simp [exec, execSswr, h]

theorem exec_erpush (o : Level) (h : inMatrix s.cfg r c = true) :
    exec (.erpush r c o) s = .next (s.opErpush r c o) := by
  simp [exec, execErpush, h]

theorem exec_sbrd (k : Half) (h : inRow s.cfg r = true) : exec (.sbrd k r) s = .next (s.opSbrd k r) := by
  simp [exec, execSbrd, h]

theorem exec_keystep (k : Half) (h : inMatrix s.cfg r c = true) :
    exec (.keystep k r c) s = .next (s.opKeystep k r c) := by
  simp [exec, execKeystep, h]

end

/-- An operation whose indices pass the check of R66 names a row of the matrix, or a key of it. -/
theorem indices_of_not_wellFormed {P : Config} {i : Instr} (h : i.wellFormed P = false) :
    (∀ r, i.row? = some r → i.col? = none → inRow P r = false) ∧
    (∀ r c, i.row? = some r → i.col? = some c → inMatrix P r c = false) := by
  refine ⟨fun r hr hc => ?_, fun r c hr hc => ?_⟩
  · simpa [Instr.wellFormed, Instr.rowOk, Instr.colOk, hr, hc, inRow] using h
  · simpa [Instr.wellFormed, Instr.rowOk, Instr.colOk, hr, hc, inMatrix] using h

/-- Settles O45: each micro operation checks its indices first. -/
theorem microBadIndexRefused : Obligations.MicroBadIndexRefused := by
  intro s i hmicro hbad
  obtain ⟨hrow, hkey⟩ := indices_of_not_wellFormed hbad
  have hrefuse : exec i s = .next (s.refuse .badIndex) := by
    cases i with
    | debupd r c x => simp [exec, execDebupd, hkey r c rfl rfl]
    | debout r c => simp [exec, execDebout, hkey r c rfl rfl]
    | sswr r c b => simp [exec, execSswr, hkey r c rfl rfl]
    | erpush r c o => simp [exec, execErpush, hkey r c rfl rfl]
    | sbrd k r => simp [exec, execSbrd, hrow r rfl rfl]
    | keystep k r c => simp [exec, execKeystep, hkey r c rfl rfl]
    | _ => cases hmicro
  exact ⟨_, hrefuse, refused_refuse _ s⟩

/-! ### DEBUPD -/

/-- The Debouncer and the flag that one timestep of key (r,c) gives. -/
def State.timestep (s : State) (r c : Idx) (x : Level) : Debouncer × Bool :=
  (s.key r c).update s.cfg.steady s.cfg.transient x

theorem State.opDebupd_key {s : State} {r c : Idx} (x : Level) (h : (s.key r c).inRange s.cfg.steady = true) :
    (s.opDebupd r c x).key r c = (s.timestep r c x).1 := by
  rw [State.opDebupd_inRange x h, State.key_congr (State.withLatch_keys _ _), State.key_setKey_same]
  rfl

theorem State.opDebupd_latch {s : State} {r c : Idx} (x : Level) (h : (s.key r c).inRange s.cfg.steady = true) :
    (s.opDebupd r c x).latch = { s.latch with changed := (s.timestep r c x).2 } := by
  rw [State.opDebupd_inRange x h, State.withLatch_latch]
  rfl

theorem State.opDebupd_otherKeys (s : State) (r c : Idx) (x : Level) : OtherKeysSame r c s (s.opDebupd r c x) := by
  intro r' c' hne
  cases h : (s.key r c).inRange s.cfg.steady with
  | true => rw [State.opDebupd_inRange x h, State.key_congr (State.withLatch_keys _ _), State.key_setKey_other _ _ hne]
  | false => rw [State.opDebupd_outOfRange x h, State.key_congr (State.violate_keys _ _ _)]

theorem State.opDebupd_frame {s : State} {r c : Idx} (x : Level) (h : (s.key r c).inRange s.cfg.steady = true) :
    OnlyChanges [.keys, .latch] s (s.opDebupd r c x) := by
  rw [State.opDebupd_inRange x h]
  exact (s.setKey_frame r c _).trans (State.withLatch_frame _ _) (by decide)

/-- Settles O21. -/
theorem debupdCompletes : Obligations.DebupdCompletes := fun s r c x hm hr =>
  ⟨_, exec_debupd x hm, State.opDebupd_key x hr, State.opDebupd_latch x hr, s.opDebupd_otherKeys r c x,
    State.opDebupd_frame x hr⟩

/-! ### An invariant violation -/

/-- What a violation writes and leaves in a debug build (60_exceptions.md R152, R163). -/
def ViolatedDebug (r c : Idx) (s t : State) : Prop :=
  t.phase = .failed ∧ t.fcode = 5#4 ∧ t.busy = false ∧ t.faultKey = some (r, c) ∧ t.stage = .keyStart ∧
    t.cutKey = none ∧ OnlyChanges [.phase, .fcode, .busy, .faultKey, .stage, .cutKey, .latch] s t

theorem State.violate_latch (s : State) (r c : Idx) : (s.violate r c).latch = { s.latch with changed := false } := by
  rcases s.violate_spec r c with ⟨_, e⟩ | ⟨_, e⟩ <;> rw [e] <;> rfl

theorem State.violate_defensive {s : State} (r c : Idx) (hb : s.cfg.buildMode = .defensive) :
    OnlyChanges [.latch] s (s.violate r c) := by
  rcases s.violate_spec r c with ⟨_, e⟩ | ⟨hd, _⟩
  · rw [e]
    exact s.withLatch_frame _
  · simp [hb] at hd

theorem State.violate_debug {s : State} (r c : Idx) (hb : s.cfg.buildMode = .debug) :
    ViolatedDebug r c s (s.violate r c) := by
  rcases s.violate_spec r c with ⟨hd, _⟩ | ⟨_, e⟩
  · simp [hb] at hd
  · rw [e]
    refine ⟨rfl, rfl, rfl, rfl, rfl, rfl, fun f hf => ?_⟩
    cases f <;> simp [FieldName.same] at hf ⊢

/-- Settles O22: DEBUPD out of range is the violation, by build mode. -/
theorem debupdViolation : Obligations.DebupdViolation := by
  intro s r c x hm hr
  refine ⟨_, exec_debupd x hm, ?_⟩
  rw [State.opDebupd_outOfRange x hr]
  exact ⟨s.violate_latch r c, State.violate_defensive r c, State.violate_debug r c⟩

/-! ### DEBOUT, SBRD, SSWR -/

/-- Settles O23. -/
theorem deboutCompletes : Obligations.DeboutCompletes := fun s _ _ hm =>
  ⟨_, exec_debout hm, Fsm.out_eq_true _, rfl, s.withLatch_frame _⟩

@[simp] theorem State.opSbrd_word (s : State) (h : Half) (r : Idx) :
    (s.opSbrd h r).latch.word = (s.snapWord h r).getD (Config.freeWord s.draws) := by
  rw [State.opSbrd_update]
  rfl

theorem State.opSbrd_latch (s : State) (h : Half) (r : Idx) :
    (s.opSbrd h r).latch = { s.latch with word := (s.opSbrd h r).latch.word } := by
  rw [State.opSbrd_update]
  rfl

/-- SBRD of a written word writes the latch alone. -/
theorem State.opSbrd_written {s : State} {h : Half} {r : Idx} {w : Word} (hw : s.snapWord h r = some w) :
    s.opSbrd h r = s.withLatch { s.latch with word := w } := by
  simp [State.opSbrd, hw]

/-- SBRD of a word never written draws a free value. -/
theorem State.opSbrd_free {s : State} {h : Half} {r : Idx} (hw : s.snapWord h r = none) :
    s.opSbrd h r = (s.withLatch { s.latch with word := Config.freeWord s.draws }).withDraws (s.draws + 1) := by
  simp [State.opSbrd, hw]

theorem State.opSbrd_frame (s : State) (h : Half) (r : Idx) : OnlyChanges [.latch, .draws] s (s.opSbrd h r) := by
  intro f hf
  cases f <;> simp [FieldName.same] at hf ⊢

/-- Settles O26: a written word is the whole of the new latch, so a second read of it gives the same state. -/
theorem sbrdReads : Obligations.SbrdReads := by
  intro s h r hr
  refine ⟨_, exec_sbrd h hr, s.opSbrd_latch h r, fun w hw => ?_, fun hw => ?_⟩
  · rw [State.opSbrd_written hw]
    refine ⟨rfl, s.withLatch_frame _, ?_⟩
    rw [exec_sbrd h (by simpa using hr), State.opSbrd_written (w := w) (by simpa [State.snapWord] using hw)]
    rfl
  · exact ⟨by simp [hw], by simp [State.opSbrd_free hw], s.opSbrd_frame h r⟩

theorem State.opSswr_otherBits (s : State) (r c : Idx) (b : Level) : OtherBitsSame r c s (s.opSswr r c b) :=
  fun _ _ hne => State.ssBit_setSsBit_other s b hne

@[simp] theorem State.ssBit_opSswr_same (s : State) (r c : Idx) (b : Level) : (s.opSswr r c b).ssBit r c = b :=
  State.ssBit_setSsBit_same s r c b

theorem Word.putBit_held {w : Word} {c : Idx} {b : Level} (h : w.getLsbD c.val = b) : Word.putBit w c b = w := by
  apply BitVec.eq_of_getLsbD_eq
  intro k hk
  have := Word.getLsbD_putBit w c ⟨k, hk⟩ b
  simp only at this
  rw [this]
  split
  · rename_i hc
    subst hc
    exact h.symm
  · rfl

theorem State.opSswr_held {s : State} {r c : Idx} {b : Level} (h : s.ssBit r c = b) : s.opSswr r c b = s := by
  simp only [State.opSswr, State.setSsBit, Word.putBit_held h, Vector.set_getElem_self]
  rfl

/-- Settles O32. -/
theorem sswrStoresOneBit : Obligations.SswrStoresOneBit := fun s r c b hm =>
  ⟨_, exec_sswr b hm, by simp, s.opSswr_otherBits r c b, s.opSswr_frame r c b, State.opSswr_held⟩

/-! ### ERPUSH -/

/-- ERPUSH writes the queue and the latch, and draws a value only with RELAY_MAY_DROP_EARLY. -/
theorem State.opErpush_frame (s : State) (r c : Idx) (o : Level) :
    OnlyChanges (if s.cfg.relayMayDropEarly then [.eq, .latch, .draws] else [.eq, .latch]) s (s.opErpush r c o) := by
  obtain ⟨take, n, e, -, hn⟩ := s.opErpush_spec r c o
  intro f hf
  cases hd : s.cfg.relayMayDropEarly
  · cases f <;> simp [FieldName.same, hd, e, hn] at hf ⊢
  · cases f <;> simp [FieldName.same, hd] at hf ⊢

/-- What ERPUSH does to the queue, with the flag it latches. -/
theorem State.opErpush_queue (s : State) (r c : Idx) (o : Level) :
    ((s.opErpush r c o).latch.taken = true →
      (s.opErpush r c o).eq = s.eq ++ [{ row := r, col := c, output := o }] ∧ s.eq.length < s.cfg.queueCap) ∧
    ((s.opErpush r c o).latch.taken = false → (s.opErpush r c o).eq = s.eq) ∧
    (s.cfg.relayMayDropEarly = false → ((s.opErpush r c o).latch.taken = true ↔ s.eq.length < s.cfg.queueCap)) := by
  obtain ⟨take, n, e, hroom, hn⟩ := s.opErpush_spec r c o
  rw [e]
  refine ⟨fun ht => ⟨?_, hroom ht⟩, fun ht => ?_, fun hd => (hn hd).2⟩
  · exact if_pos ht
  · change take = false at ht
    simp [ht]

/-- Settles O35. -/
theorem erpushOffers : Obligations.ErpushOffers := by
  intro s r c o hm
  obtain ⟨htaken, hdropped, hroom⟩ := s.opErpush_queue r c o
  exact ⟨_, exec_erpush o hm, rfl, htaken, hdropped, hroom, s.opErpush_frame r c o⟩

/-! ### KEYSTEP -/

/-- The sample a KEYSTEP takes: the pin of the snapshot word, a free value where nothing has written it
(41_keymatrix.md R102, R104). -/
def State.stepSample (s : State) (h : Half) (r c : Idx) : Level :=
  pinSelect s.cfg ((s.snapWord h r).getD (Config.freeWord s.draws)) r c

/-- The state inside a KEYSTEP after its SBRD and its DEBUPD. -/
def State.sampled (s : State) (h : Half) (r c : Idx) : State := (s.opSbrd h r).opDebupd r c (s.stepSample h r c)

/-- The state of a KEYSTEP whose DEBUPD, leading to t, reported a change: the new output is published and forwarded. -/
def State.forwarded (t : State) (r c : Idx) : State :=
  ((t.opDebout r c).opSswr r c (t.key r c).fsm.out).opErpush r c (t.key r c).fsm.out

/-- A KEYSTEP goes on from DEBUPD only when `changed` (41_keymatrix.md R105). -/
theorem State.opKeystep_eq (s : State) (h : Half) (r c : Idx) :
    s.opKeystep h r c =
      if (s.sampled h r c).latch.changed then (s.sampled h r c).forwarded r c else s.sampled h r c := by
  have hs : s.sampled h r c =
      (s.opSbrd h r).opDebupd r c (pinSelect (s.opSbrd h r).cfg (s.opSbrd h r).latch.word r c) := by
    simp [State.sampled, State.stepSample]
  split
  · exact State.opKeystep_changed hs ‹_›
  · rw [hs] at *
    exact State.opKeystep_unchanged (Bool.eq_false_iff.2 ‹_›)

theorem State.opSbrd_key (s : State) (h : Half) (r : Idx) (r' c' : Idx) : (s.opSbrd h r).key r' c' = s.key r' c' :=
  State.key_congr (State.opSbrd_keys s h r) r' c'

section
variable {s : State} {r c : Idx} (h : Half)

theorem State.sampled_key (hr : (s.key r c).inRange s.cfg.steady = true) :
    (s.sampled h r c).key r c = (s.timestep r c (s.stepSample h r c)).1 := by
  rw [State.sampled, State.opDebupd_key _ (by simpa [State.opSbrd_key] using hr)]
  simp [State.timestep, State.opSbrd_key]

theorem State.sampled_changed (hr : (s.key r c).inRange s.cfg.steady = true) :
    (s.sampled h r c).latch.changed = (s.timestep r c (s.stepSample h r c)).2 := by
  rw [State.sampled, State.opDebupd_latch _ (by simpa [State.opSbrd_key] using hr)]
  simp [State.timestep, State.opSbrd_key]

theorem State.sampled_frame (hr : (s.key r c).inRange s.cfg.steady = true) :
    OnlyChanges [.keys, .latch, .draws] s (s.sampled h r c) :=
  (s.opSbrd_frame h r).trans (State.opDebupd_frame _ (by simpa [State.opSbrd_key] using hr)) (by decide)

end

theorem State.sampled_otherKeys (s : State) (h : Half) (r c : Idx) : OtherKeysSame r c s (s.sampled h r c) :=
  fun r' c' hne => (State.opDebupd_otherKeys _ r c _ r' c' hne).trans (s.opSbrd_key h r r' c')

theorem State.forwarded_frame (t : State) (r c : Idx) : OnlyChanges [.ss, .eq, .latch, .draws] t (t.forwarded r c) := by
  intro f hf
  cases f <;> simp [FieldName.same, State.forwarded] at hf ⊢

theorem State.forwarded_key (t : State) (r c r' c' : Idx) : (t.forwarded r c).key r' c' = t.key r' c' :=
  State.key_congr ((State.forwarded_frame t r c) .keys (by decide)) r' c'

@[simp] theorem State.forwarded_changed (t : State) (r c : Idx) :
    (t.forwarded r c).latch.changed = t.latch.changed := rfl

theorem State.forwarded_bit (t : State) (r c : Idx) : (t.forwarded r c).ssBit r c = (t.key r c).fsm.out :=
  State.ssBit_opSswr_same (t.opDebout r c) r c _

theorem State.forwarded_otherBits (t : State) (r c : Idx) : OtherBitsSame r c t (t.forwarded r c) :=
  State.opSswr_otherBits (t.opDebout r c) r c _

/-- The queue after the ERPUSH of a key step. -/
theorem State.forwarded_queue (t : State) (r c : Idx) :
    (t.cfg.queueCap ≤ t.eq.length → (t.forwarded r c).eq = t.eq) ∧
    (t.eq.length < t.cfg.queueCap → t.cfg.relayMayDropEarly = false →
      (t.forwarded r c).eq = t.eq ++ [{ row := r, col := c, output := (t.key r c).fsm.out }]) ∧
    ((t.forwarded r c).eq = t.eq ∨
      (t.forwarded r c).eq = t.eq ++ [{ row := r, col := c, output := (t.key r c).fsm.out }]) := by
  obtain ⟨htaken, hdropped, hroom⟩ :=
    ((t.opDebout r c).opSswr r c (t.key r c).fsm.out).opErpush_queue r c (t.key r c).fsm.out
  change ((t.forwarded r c).latch.taken = true → _) at htaken
  change ((t.forwarded r c).latch.taken = false → _) at hdropped
  change (_ → ((t.forwarded r c).latch.taken = true ↔ _)) at hroom
  cases ht : (t.forwarded r c).latch.taken with
  | true => exact ⟨fun hfull => absurd (htaken ht).2 (Nat.not_lt.2 hfull), fun _ _ => (htaken ht).1, .inr (htaken ht).1⟩
  | false =>
    exact ⟨fun _ => hdropped ht, fun hr hd => absurd ((hroom hd).2 hr) (by simp [ht]), .inl (hdropped ht)⟩

/-- From s to t key (r,c) has taken a timestep with the result u: on a change its bit is published and its event offered
(41_keymatrix.md R105). -/
def KeyStepped (r c : Idx) (u : Debouncer × Bool) (s t : State) : Prop :=
  t.key r c = u.1 ∧ OtherKeysSame r c s t ∧ t.latch.changed = u.2 ∧
    OnlyChanges [.keys, .ss, .eq, .latch, .draws] s t ∧
    (u.2 = false → t.ss = s.ss ∧ t.eq = s.eq) ∧
    (u.2 = true → t.ssBit r c = u.1.fsm.out ∧ OtherBitsSame r c s t ∧
      (s.cfg.queueCap ≤ s.eq.length → t.eq = s.eq) ∧
      (s.eq.length < s.cfg.queueCap → s.cfg.relayMayDropEarly = false →
        t.eq = s.eq ++ [{ row := r, col := c, output := u.1.fsm.out }]) ∧
      (t.eq = s.eq ∨ t.eq = s.eq ++ [{ row := r, col := c, output := u.1.fsm.out }]))

section
variable {s : State} {r c : Idx} (h : Half)

theorem State.sampled_keyStepped (hr : (s.key r c).inRange s.cfg.steady = true)
    (hu : (s.timestep r c (s.stepSample h r c)).2 = false) :
    KeyStepped r c (s.timestep r c (s.stepSample h r c)) s (s.sampled h r c) := by
  have hframe := State.sampled_frame h hr
  exact ⟨State.sampled_key h hr, s.sampled_otherKeys h r c, State.sampled_changed h hr, hframe.mono (by decide),
    fun _ => ⟨hframe .ss (by decide), hframe .eq (by decide)⟩, fun e => absurd (hu.symm.trans e) (by decide)⟩

theorem State.forwarded_keyStepped (hr : (s.key r c).inRange s.cfg.steady = true)
    (hu : (s.timestep r c (s.stepSample h r c)).2 = true) :
    KeyStepped r c (s.timestep r c (s.stepSample h r c)) s ((s.sampled h r c).forwarded r c) := by
  have hframe := State.sampled_frame h hr
  have heq : (s.sampled h r c).eq = s.eq := hframe .eq (by decide)
  have hss : (s.sampled h r c).ss = s.ss := hframe .ss (by decide)
  have hcfg : (s.sampled h r c).cfg = s.cfg := hframe .cfg (by decide)
  have hqueue := (s.sampled h r c).forwarded_queue r c
  have hbit := (s.sampled h r c).forwarded_bit r c
  rw [State.sampled_key h hr] at hqueue hbit
  rw [heq, hcfg] at hqueue
  refine ⟨(State.forwarded_key _ r c r c).trans (State.sampled_key h hr),
    fun r' c' hne => (State.forwarded_key _ r c r' c').trans (s.sampled_otherKeys h r c r' c' hne),
    (State.forwarded_changed _ r c).trans (State.sampled_changed h hr),
    hframe.trans (State.forwarded_frame _ r c) (by decide), fun e => absurd (hu.symm.trans e) (by decide),
    fun _ => ⟨hbit, fun r' c' hne => ?_, hqueue⟩⟩
  rw [State.forwarded_otherBits _ r c r' c' hne, State.ssBit_congr hss]

/-- The effect of KEYSTEP on a key whose counter is in range. -/
theorem State.opKeystep_inRange (hr : (s.key r c).inRange s.cfg.steady = true) :
    KeyStepped r c (s.timestep r c (s.stepSample h r c)) s (s.opKeystep h r c) := by
  rw [State.opKeystep_eq, State.sampled_changed h hr]
  split
  · exact State.forwarded_keyStepped h hr ‹_›
  · exact State.sampled_keyStepped h hr (Bool.eq_false_iff.2 ‹_›)

end

/-- Settles O27. -/
theorem keystepEffect : Obligations.KeystepEffect := fun _ h _ _ hm hr =>
  ⟨_, exec_keystep h hm, State.opKeystep_inRange h hr⟩

/-- A KEYSTEP whose DEBUPD meets a counter out of range is its SBRD and the violation. -/
theorem State.opKeystep_outOfRange {s : State} {r c : Idx} (h : Half) (hr : (s.key r c).inRange s.cfg.steady = false) :
    s.opKeystep h r c = (s.opSbrd h r).violate r c := by
  have hv : s.sampled h r c = (s.opSbrd h r).violate r c :=
    State.opDebupd_outOfRange _ (by simpa [State.opSbrd_key] using hr)
  simp [State.opKeystep_eq, hv]

/-- Settles O28: the violation comes before SSWR. -/
theorem keystepViolation : Obligations.KeystepViolation := by
  intro s h r c hm hr
  refine ⟨_, exec_keystep h hm, ?_⟩
  rw [State.opKeystep_outOfRange h hr]
  refine ⟨State.violate_changed _ r c, fun hb => ?_, fun hb => ?_⟩
  · exact (s.opSbrd_frame h r).trans (State.violate_defensive r c (by simpa using hb)) (by decide)
  · obtain ⟨hp, hf, hbusy, hk, -, -, hframe⟩ := State.violate_debug (s := s.opSbrd h r) r c (by simpa using hb)
    exact ⟨hp, hf, hbusy, hk, (s.opSbrd_frame h r).trans hframe (by decide)⟩

end Sys2Proof.Machine
end

section
/-! The operations at the ports (41_keymatrix.md R100, R106; 42_statestore.md R122, R123; 43_eventrelay.md R134;
44_lifecycle.md R142, R144): what each is under the conditions it has passed, the refusal of a bad index, and the
theorems that settle O24, O25, O29, O33, O34, O36, O40 to O42 and O44. -/

namespace Sys2Proof.Machine

/-! ### SBWR -/

/-- SBWR of an existing row outside the half under dispatch. -/
theorem exec_sbwr_stores {s : State} {h : Half} {r : Idx} (w : Word) (hr : inRow s.cfg r = true)
    (hb : s.busy = true → s.cur.h ≠ h) : exec (.sbwr h r w) s = .next (s.setSnap h r w).done := by
  have hfree : ¬(s.busy = true ∧ s.cur.h = h) := fun ⟨hbusy, hh⟩ => hb hbusy hh
  simp [exec, execSbwr, hr, hfree]

theorem exec_sbwr_overrun {s : State} {h : Half} {r : Idx} (w : Word) (hr : inRow s.cfg r = true)
    (hb : s.busy = true) (hh : s.cur.h = h) : exec (.sbwr h r w) s = .fault (.overrunWrite h r) := by
  simp [exec, execSbwr, hr, hb, hh]

theorem exec_sbwr_badIndex {s : State} {r : Idx} (h : Half) (w : Word) (hr : inRow s.cfg r = false) :
    exec (.sbwr h r w) s = .next (s.refuse .badIndex) := by
  simp [exec, execSbwr, hr]

theorem State.setSnap_frame (s : State) (h : Half) (r : Idx) (w : Word) : OnlyChanges [.snap] s (s.setSnap h r w) := by
  intro f hf
  cases f <;> simp [FieldName.same] at hf ⊢

/-- Settles O24, by the read after a write of the snapshot memory. -/
theorem sbwrStores : Obligations.SbwrStores := fun s h r w hwf hr hb =>
  ⟨_, exec_sbwr_stores w hr hb, s.snapWord_setSnap_same h r w,
    fun _ _ hne => State.snapWord_setSnap_other w hwf hne, rfl,
    (s.setSnap_frame h r w).trans (State.withAnswer_frame _ _) (by decide)⟩

/-- Settles O25. -/
theorem sbwrOverrun : Obligations.SbwrOverrun := fun s h _ w hb hh =>
  ⟨fun hr => exec_sbwr_overrun w hr hb hh, fun hr => ⟨_, exec_sbwr_badIndex h w hr, refused_refuse _ s⟩⟩

/-! ### NOTIFY and STOP -/

theorem exec_notify_accepts {s : State} (h : Half) (hp : s.phase = .ready) (hb : s.busy = false) :
    exec (.notify h) s = .next (s.beginDispatch h).done := by
  simp [exec, execNotify, hp, hb]

theorem exec_notify_overrun {s : State} (h : Half) (hp : s.phase = .ready) (hb : s.busy = true) :
    exec (.notify h) s = .fault (.overrunNotify h) := by
  simp [exec, execNotify, hp, hb]

theorem State.beginDispatch_frame (s : State) (h : Half) : OnlyChanges [.busy, .cur, .stage] s (s.beginDispatch h) := by
  intro f hf
  cases f <;> simp [FieldName.same] at hf ⊢

/-- Settles O29: the engine's place is kept exactly when a key step was cut off. -/
theorem notifyAccepts : Obligations.NotifyAccepts := fun s h hp hb =>
  ⟨_, exec_notify_accepts h hp hb, rfl, rfl, fun hk => by simp [hk],
    fun hk => by simp [Option.isSome_iff_ne_none.2 hk], rfl,
    (s.beginDispatch_frame h).trans (State.withAnswer_frame _ _) (by decide)⟩

theorem exec_stop_aborts {s : State} (ha : s.cfg.stopAbortsDispatch = true) (hb : s.busy = true) :
    exec .stop s = .next s.abortDispatch.done := by
  simp [exec, execStop, ha, hb]

theorem exec_stop_keeps {s : State} (h : s.cfg.stopAbortsDispatch = false ∨ s.busy = false) :
    exec .stop s = .next s.done := by
  rcases h with h | h <;> simp [exec, execStop, h]

theorem State.abortDispatch_frame (s : State) : OnlyChanges [.busy, .cutKey] s s.abortDispatch := by
  intro f hf
  cases f <;> simp [FieldName.same] at hf ⊢

/-- Settles O41: STOP is `done`, after `abortDispatch` when it ends a dispatch. -/
theorem stopKeepsState : Obligations.StopKeepsState := by
  intro s
  by_cases h : s.cfg.stopAbortsDispatch = true ∧ s.busy = true
  · obtain ⟨ha, hb⟩ := h
    refine ⟨_, exec_stop_aborts ha hb, rfl, s.abortDispatch_frame.trans (State.withAnswer_frame _ _) (by decide),
      fun hn => ?_, fun _ _ => ⟨rfl, fun hg => ?_, fun hg => ?_⟩⟩
    · simp [ha, hb] at hn
    · simp [State.keyInProgress, hg]
    · simp [State.keyInProgress, hg]
  · have hn : s.cfg.stopAbortsDispatch = false ∨ s.busy = false := by
      simpa [imp_iff_not_or] using h
    have hframe := s.withAnswer_frame (some { status := Code.none.num, data := none })
    exact ⟨_, exec_stop_keeps hn, rfl, hframe.mono (by decide), fun _ => hframe, fun ha hb => absurd ⟨ha, hb⟩ h⟩

/-- Settles O42: outside a dispatch STOP writes the answer alone, which NOTIFY overwrites. -/
theorem scanResumesAfterStop : Obligations.ScanResumesAfterStop := by
  intro s t h hp hb hstop
  rw [exec_stop_keeps (.inr hb)] at hstop
  cases hstop
  exact ⟨_, exec_notify_accepts (s := s.done) h hp hb, exec_notify_accepts h hp hb⟩

/-! ### The reads -/

theorem exec_ssrd_reads {s : State} {r c : Idx} (hp : s.phase = .ready) (hm : inMatrix s.cfg r c = true) :
    exec (.ssrd r c) s = .next (s.doneWith (Word.ofLevel (s.ssBit r c))) := by
  simp [exec, execSsrd, hp, hm]

theorem exec_ssrdrow_reads {s : State} {r : Idx} (hp : s.phase = .ready) (hr : inRow s.cfg r = true) :
    exec (.ssrdrow r) s = .next (s.doneWith (s.ssRow r)) := by
  simp [exec, execSsrdrow, hp, hr]

/-- Settles O33. -/
theorem ssrdReads : Obligations.SsrdReads := fun s _ _ hp hm => ⟨_, exec_ssrd_reads hp hm, rfl, s.withAnswer_frame _⟩

/-- A row word shows the bits of the columns that exist, and 0 above them (30_encoding.md R63). -/
theorem State.getLsbD_ssRow (s : State) (r c : Idx) :
    (s.ssRow r).getLsbD c.val = (decide (c.val < s.cfg.cols) && s.ssBit r c) := by
  rw [State.ssRow, BitVec.getLsbD_and, getLsbD_colMask, Bool.and_comm]
  rfl

/-- Settles O34. -/
theorem ssrdrowReads : Obligations.SsrdrowReads := fun s r hp hr =>
  ⟨_, _, exec_ssrdrow_reads hp hr, rfl, s.withAnswer_frame _, s.getLsbD_ssRow r⟩

/-! ### ERPOP -/

/-- Settles O36, by the two cases of `popEvent`. -/
theorem erpopTakesOldest : Obligations.ErpopTakesOldest := by
  intro s hp
  refine ⟨fun hq => ⟨_, exec_erpop_of_ready hp, ?_⟩, fun e rest hq => ⟨_, exec_erpop_of_ready hp, ?_⟩⟩
  · rw [State.popEvent_of_nil hq]
    exact ⟨rfl, s.withAnswer_frame _⟩
  · rw [State.popEvent_of_cons hq]
    refine ⟨rfl, rfl, fun f hf => ?_⟩
    cases f <;> simp [FieldName.same] at hf ⊢

/-! ### INIT with an invalid configuration -/

theorem exec_init_of_invalid {s : State} (pol : Level) (hp : s.phase ≠ .failed) (hb : s.busy = false)
    (hv : configValid s.cfg = false) :
    exec (.init pol) s =
      .next ((s.takeFault (configError s.cfg)).doneWith ((configError s.cfg).num.setWidth 16)) := by
  simp [exec, execInit, hp, hb, hv]

/-- The codes the configuration check can give (44_lifecycle.md R141). -/
theorem configError_cases (P : Config) :
    configError P = .none ∨ configError P = .configThresholdOrder ∨ configError P = .configDimRange ∨
      configError P = .configCounterWidth ∨ configError P = .configPinMap := by
  unfold configError
  (repeat' split) <;> simp

theorem configError_num (P : Config) (hv : configValid P = false) :
    1 ≤ (configError P).num.toNat ∧ (configError P).num.toNat ≤ 4 := by
  have hne : configError P ≠ .none := by simpa [configValid] using hv
  rcases configError_cases P with h | h | h | h | h
  · exact absurd h hne
  all_goals
    rw [h]
    decide

theorem State.takeFault_frame (s : State) (c : Code) : OnlyChanges [.phase, .fcode] s (s.takeFault c) := by
  intro f hf
  cases f <;> simp [FieldName.same] at hf ⊢

/-- Settles O40. -/
theorem initReportsConfigurationFault : Obligations.InitReportsConfigurationFault := fun s pol hp hb hv =>
  have hnum := configError_num s.cfg hv
  ⟨_, exec_init_of_invalid pol hp hb hv, rfl, rfl, hnum.1, hnum.2, rfl,
    (s.takeFault_frame _).trans (State.withAnswer_frame _ _) (by decide)⟩

/-! ### Bad indices -/

/-- Settles O44: the two reads check their indices after the phase, SBWR checks its row first; no other port operation
carries an index. -/
theorem badIndexRefused : Obligations.BadIndexRefused := by
  intro s i hport hbad hphase
  obtain ⟨hrow, hkey⟩ := indices_of_not_wellFormed hbad
  have hrefuse : exec i s = .next (s.refuse .badIndex) := by
    cases i with
    | sbwr h r w => exact exec_sbwr_badIndex h w (hrow r rfl rfl)
    | ssrd r c =>
      have hp : s.phase = .ready := hphase.resolve_right nofun
      simp [exec, execSsrd, hp, hkey r c rfl rfl]
    | ssrdrow r =>
      have hp : s.phase = .ready := hphase.resolve_right nofun
      simp [exec, execSsrdrow, hp, hrow r rfl rfl]
    | init pol => cases hbad
    | notify h => cases hbad
    | erpop => cases hbad
    | stop => cases hbad
    | _ => cases hport
  exact ⟨_, hrefuse, refused_refuse .badIndex s⟩

end Sys2Proof.Machine
end

section
/-! The configuration check (44_lifecycle.md R140, R141), the counter's two encodings (30_encoding.md R61,
40_debouncer.md R95), the conversion of times (00_scope.md R9, R10) and the Row Driver's protocol (41_keymatrix.md
R116): the theorems that settle O9, O20, O38, O58 and O59. -/

namespace Sys2Proof.Machine

/-! ### The counter register -/

theorem counterWidthOk_iff {P : Config} : counterWidthOk P = true ↔ 2 * P.steady + 2 ≤ 2 ^ P.cw := by
  simp [counterWidthOk]

/-- Settles O9: twice the counter stays within the register's modulus. -/
theorem counterRegisterHoldsRange : Obligations.CounterRegisterHoldsRange := by
  intro P k hw h1 h2
  have hw := counterWidthOk_iff.1 hw
  exact cntRegister_toInt (by omega) (by omega)

/-! ### The unsigned twin -/

/-- The unsigned step keeps the range and is the signed step of u − S. -/
theorem uStep_signed {S u : Nat} (x : Level) (h : u ≤ uMax S) :
    uStep S u x ≤ uMax S ∧ stepCounter S ((u : Int) - S) x = (uStep S u x : Int) - S := by
  unfold uMax at *
  cases x
  · simp only [uStep, stepCounter_false, satDec, Bool.false_eq_true, if_false]
    omega
  · simp only [uStep, uMax, stepCounter_true, satInc, if_true]
    omega

/-- The transition of the unsigned encoding on the stepped counter u1 (40_debouncer.md R95). -/
def uTransition (S T : Nat) (f : Fsm) (u1 : Nat) : UDebouncer × Bool :=
  match f with
  | .steadyLo => if u1 ≥ uLo T then (⟨.transientLoHi, S⟩, true) else (⟨.steadyLo, u1⟩, false)
  | .transientLoHi =>
    if u1 = uMax S then (⟨.steadyHi, u1⟩, false)
    else if u1 = 0 then (⟨.steadyLo, u1⟩, true) else (⟨.transientLoHi, u1⟩, false)
  | .steadyHi => if u1 ≤ uHi S T then (⟨.transientHiLo, S⟩, true) else (⟨.steadyHi, u1⟩, false)
  | .transientHiLo =>
    if u1 = 0 then (⟨.steadyLo, u1⟩, false)
    else if u1 = uMax S then (⟨.steadyHi, u1⟩, true) else (⟨.transientHiLo, u1⟩, false)

theorem UDebouncer.update_eq (S T : Nat) (d : UDebouncer) (x : Level) :
    d.update S T x = uTransition S T d.fsm (uStep S d.u x) := by
  obtain ⟨f, u⟩ := d
  cases f <;> rfl

theorem uTransition_bound {S T : Nat} (f : Fsm) {u1 : Nat} (h : u1 ≤ uMax S) : (uTransition S T f u1).1.u ≤ uMax S := by
  have hS : S ≤ uMax S := by unfold uMax; omega
  cases f <;> simp only [uTransition] <;> (repeat' split) <;> assumption

/-- Each threshold of the unsigned transition is the signed one, moved by S. -/
theorem transition_signed {S T : Nat} (hTS : T < S) (f : Fsm) (u1 : Nat) :
    transition S T f ((u1 : Int) - S) =
      (UDebouncer.signed S (uTransition S T f u1).1, (uTransition S T f u1).2) := by
  have hlo : (u1 : Int) - S ≥ -((S : Int) - T) ↔ u1 ≥ uLo T := by unfold uLo; omega
  have hhi : (u1 : Int) - S ≤ (S : Int) - T ↔ u1 ≤ uHi S T := by unfold uHi; omega
  have hmax : (u1 : Int) - S = S ↔ u1 = uMax S := by unfold uMax; omega
  have hmin : (u1 : Int) - S = -(S : Int) ↔ u1 = 0 := by omega
  cases f <;> simp only [transition, uTransition, hlo, hhi, hmax, hmin] <;> (repeat' split) <;>
    simp [UDebouncer.signed]

/-- Settles O20: the stepped counters and the transitions correspond under k = u − S. -/
theorem unsignedTwinAgrees : Obligations.UnsignedTwinAgrees := by
  intro S T hT hTS
  refine ⟨by unfold uLo uHi uMax; omega, fun d x hu => ?_⟩
  obtain ⟨hb, hs⟩ := uStep_signed x hu
  rw [UDebouncer.update_eq]
  refine ⟨uTransition_bound d.fsm hb, ?_⟩
  rw [← transition_signed hTS, ← hs]
  rfl

/-! ### The configuration check -/

theorem thresholdOrderOk_iff {P : Config} :
    thresholdOrderOk P = true ↔ 0 < P.transient ∧ P.transient < P.steady := by
  simp [thresholdOrderOk]

theorem dimRangeOk_iff {P : Config} :
    dimRangeOk P = true ↔ (1 ≤ P.rows ∧ P.rows ≤ 16) ∧ (1 ≤ P.cols ∧ P.cols ≤ 16) := by
  simp [dimRangeOk, and_assoc]

/-- The width check without a subtraction is the spec's, for every positive threshold. -/
theorem counterWidthOk_iff_le {P : Config} (h : 0 < P.steady) :
    counterWidthOk P = true ↔ P.steady ≤ 2 ^ (P.cw - 1) - 1 := by
  rw [counterWidthOk_iff]
  cases hw : P.cw with
  | zero => simp; omega
  | succ n =>
    have := Nat.pow_succ (n := 2) (m := n)
    rw [Nat.add_sub_cancel]
    omega

theorem pinsOk_iff {l : List Nat} : pinsOk l = true ↔ (∀ p ∈ l, p < 16) ∧ l.Nodup := by
  induction l with
  | nil => simp [pinsOk]
  | cons p ps ih =>
    simp only [pinsOk, Bool.and_eq_true, decide_eq_true_eq, ih, List.forall_mem_cons, List.nodup_cons]
    have hnew : (ps.all fun q => !(q == p)) = true ↔ p ∉ ps := by
      simp only [List.all_eq_true, Bool.not_eq_true', beq_eq_false_iff_ne, ne_eq]
      exact ⟨fun h hp => h p hp rfl, fun h q hq e => h (e ▸ hq)⟩
    rw [hnew]
    tauto

theorem mem_rowPins {P : Config} {r : Idx} {p : Nat} : p ∈ rowPins P r ↔ ∃ c : Idx, c.val < P.cols ∧ P.pin r c = p := by
  simp [rowPins]

/-- The pins of a row are distinct exactly when no two of its columns share one. -/
theorem nodup_rowPins {P : Config} {r : Idx} :
    (rowPins P r).Nodup ↔ ∀ c c' : Idx, c.val < P.cols → c'.val < P.cols → c' ≠ c → P.pin r c ≠ P.pin r c' := by
  rw [rowPins, List.nodup_map_iff_inj_on ((List.nodup_finRange 16).filter _)]
  simp only [List.mem_filter, List.mem_finRange, true_and, decide_eq_true_eq]
  exact ⟨fun h c c' hc hc' hne e => hne (h c hc c' hc' e).symm,
    fun h c hc c' hc' e => by_contra fun hne => h c c' hc hc' (Ne.symm hne) e⟩

theorem pinMapOk_iff {P : Config} :
    pinMapOk P = true ↔ ∀ r c : Idx, r.val < P.rows → c.val < P.cols →
      P.pin r c < 16 ∧ ∀ c' : Idx, c'.val < P.cols → c' ≠ c → P.pin r c ≠ P.pin r c' := by
  have hrow : ∀ r : Idx, pinsOk (rowPins P r) = true ↔ ∀ c : Idx, c.val < P.cols →
      P.pin r c < 16 ∧ ∀ c' : Idx, c'.val < P.cols → c' ≠ c → P.pin r c ≠ P.pin r c' := fun r => by
    rw [pinsOk_iff, nodup_rowPins]
    simp only [mem_rowPins, forall_exists_index, and_imp, forall_apply_eq_imp_iff₂]
    exact ⟨fun ⟨h1, h2⟩ c hc => ⟨h1 c hc, fun c' hc' => h2 c c' hc hc'⟩,
      fun h => ⟨fun c hc => (h c hc).1, fun c c' hc hc' => (h c hc).2 c' hc'⟩⟩
  simp only [pinMapOk, List.all_eq_true, List.mem_finRange, true_implies, Bool.or_eq_true, Bool.not_eq_true',
    decide_eq_false_iff_not, hrow, ← imp_iff_not_or]
  exact ⟨fun h r c hr hc => h r hr c hc, fun h r hr c hc => h r c hr hc⟩

theorem configValid_iff {P : Config} :
    configValid P = true ↔
      thresholdOrderOk P = true ∧ dimRangeOk P = true ∧ counterWidthOk P = true ∧ pinMapOk P = true := by
  unfold configValid configError
  (repeat' split) <;> simp_all

/-- Settles O38: the checks in the order of `configError`, each read as its condition. -/
theorem configCheckReportsLowestCode : Obligations.ConfigCheckReportsLowestCode := by
  intro P order dims width pins
  have horder : thresholdOrderOk P = true ↔ order := thresholdOrderOk_iff
  have hdims : dimRangeOk P = true ↔ dims := dimRangeOk_iff
  have hwidth (h : order) : counterWidthOk P = true ↔ width := counterWidthOk_iff_le (h.1.trans h.2)
  have hpins : pinMapOk P = true ↔ pins := pinMapOk_iff
  refine ⟨fun h => ?_, fun ⟨ho, h⟩ => ?_, fun ⟨ho, hd, h⟩ => ?_, fun ⟨ho, hd, hw, h⟩ => ?_,
    fun ⟨ho, hd, hw, hp⟩ => ?_, ?_⟩
  · simp [configError, mt horder.1 h]
  · simp [configError, horder.2 ho, mt hdims.1 h]
  · simp [configError, horder.2 ho, hdims.2 hd, mt (hwidth ho).1 h]
  · simp [configError, horder.2 ho, hdims.2 hd, (hwidth ho).2 hw, mt hpins.1 h]
  · simp [configError, horder.2 ho, hdims.2 hd, (hwidth ho).2 hw, hpins.2 hp]
  · rw [configValid_iff, horder, hdims, hpins]
    exact and_congr_right fun ho => and_congr_right fun _ => and_congr_left fun _ => hwidth ho

/-! ### Times -/

/-- Settles O58: `ceilDiv` by the division's remainder, the rest by definition. -/
theorem timesRoundUpToFields : Obligations.TimesRoundUpToFields := by
  refine ⟨fun a b ha hb => ?_, fun t P => ⟨rfl, rfl⟩, rfl, rfl, rfl, rfl, rfl⟩
  have hdiv := Nat.div_add_mod (a + b - 1) b
  have hmod := Nat.mod_lt (a + b - 1) hb
  have hpos : 0 < ceilDiv a b := Nat.div_pos (by omega) hb
  obtain ⟨q, hq⟩ := Nat.exists_eq_add_one.2 hpos
  unfold ceilDiv at *
  rw [hq] at hdiv ⊢
  have hmul : (q + 1) * b = q * b + b := by ring
  have hcomm : b * (q + 1) = q * b + b := by ring
  rw [hcomm] at hdiv
  rw [hmul, Nat.add_sub_cancel]
  omega

/-! ### The Row Driver -/

/-- The indices below a bound, in order, by their values. -/
theorem finRange_filter_lt {n : Nat} (h : n ≤ 16) :
    ((List.finRange 16).filter fun k => decide (k.val < n)) = (List.range n).map (Fin.ofNat 16) := by
  have hall : ∀ m : Fin 17, ((List.finRange 16).filter fun k => decide (k.val < m.val)) =
      (List.range m.val).map (Fin.ofNat 16) := by decide
  exact hall ⟨n, by omega⟩

/-- In period j of field k the driver captures slot j of the half k mod 2 (41_keymatrix.md R116). -/
theorem driverOps_field {P : Config} {k j : Nat} (w : Word) (hj : j < P.rows) :
    driverOps P (k * P.rows + j) w =
      .sbwr (if k % 2 = 0 then 0 else 1) (Fin.ofNat 16 j) w ::
        if j + 1 = P.rows then [.notify (if k % 2 = 0 then 0 else 1)] else [] := by
  have hdiv : (k * P.rows + j) / P.rows = k := by
    rw [Nat.mul_comm, Nat.mul_add_div (by omega), Nat.div_eq_of_lt hj, Nat.add_zero]
  have hmod : (k * P.rows + j) % P.rows = j := by
    rw [Nat.mul_comm, Nat.mul_add_mod, Nat.mod_eq_of_lt hj]
  simp only [driverOps, driverHalf, driverSlot, hdiv, hmod]
  split <;> rfl

/-- Settles O59: all periods but the last give one SBWR each, the last one gives NOTIFY too. -/
theorem rowDriverCapturesFields : Obligations.RowDriverCapturesFields := by
  intro P k words h1 h16
  obtain ⟨n, hn⟩ := Nat.exists_eq_add_one.2 h1
  have hper : ∀ j ∈ List.range n, driverOps P (k * P.rows + j) (words (Fin.ofNat 16 j)) =
      [.sbwr (if k % 2 = 0 then 0 else 1) (Fin.ofNat 16 j) (words (Fin.ofNat 16 j))] := fun j hj => by
    have hj := List.mem_range.1 hj
    rw [driverOps_field _ (by omega), if_neg (c := j + 1 = P.rows) (by omega)]
  have hlast := driverOps_field (P := P) (k := k) (words (Fin.ofNat 16 n)) (j := n) (by omega)
  rw [if_pos hn.symm] at hlast
  have hfield : ((List.finRange 16).filter fun r => inRow P r) = (List.range P.rows).map (Fin.ofNat 16) :=
    finRange_filter_lt h16
  rw [fieldOps, hfield, hn, List.range_succ, List.flatMap_append, ← hn, List.flatMap_congr hper]
  simp only [List.flatMap_singleton, hlast, ← List.map_eq_flatMap, List.map_append, List.map_map, List.append_assoc]
  rfl

end Sys2Proof.Machine
end

section
/-! The moves of `step` (41_keymatrix.md R105, R112, log entries 6 to 9): what the head of the inbox makes of a step,
the fields each operation may write, the queue under a step, the only stop, and the theorems that settle O6, O37, O46,
O51, O54, O55 and O57. -/

namespace Sys2Proof.Machine

/-! ### The fields an operation may write -/

/-- The fields an operation may write, the model's own among them; every operation may answer a refusal. -/
def Opcode.writes : Opcode → List FieldName
  | .init => [.keys, .ss, .eq, .phase, .fcode, .stage, .cutKey, .answer]
  | .sbwr => [.snap, .answer]
  | .notify => [.busy, .cur, .stage, .answer]
  | .ssrd | .ssrdrow => [.answer]
  | .erpop => [.eq, .answer]
  | .stop => [.busy, .cutKey, .answer]
  | .debupd => [.keys, .latch, .phase, .fcode, .busy, .faultKey, .stage, .cutKey, .answer]
  | .debout => [.latch, .answer]
  | .sswr => [.ss, .answer]
  | .erpush => [.eq, .latch, .draws, .answer]
  | .sbrd => [.latch, .draws, .answer]
  | .keystep => [.keys, .ss, .eq, .latch, .draws, .phase, .fcode, .busy, .faultKey, .stage, .cutKey, .answer]

theorem answer_mem_writes (o : Opcode) : FieldName.answer ∈ Opcode.writes o := by cases o <;> decide

theorem State.violate_frame (s : State) (r c : Idx) :
    OnlyChanges [.phase, .fcode, .busy, .faultKey, .stage, .cutKey, .latch] s (s.violate r c) := by
  cases hb : s.cfg.buildMode with
  | defensive => exact (State.violate_defensive r c hb).mono (by decide)
  | debug =>
    obtain ⟨-, -, -, -, -, -, hframe⟩ := State.violate_debug r c hb
    exact hframe

theorem State.opDebupd_writes (s : State) (r c : Idx) (x : Level) :
    OnlyChanges (Opcode.writes .debupd) s (s.opDebupd r c x) := by
  cases hr : (s.key r c).inRange s.cfg.steady with
  | true => exact (State.opDebupd_frame x hr).mono (by decide)
  | false =>
    rw [State.opDebupd_outOfRange x hr]
    exact (s.violate_frame r c).mono (by decide)

theorem State.opErpush_writes (s : State) (r c : Idx) (o : Level) :
    OnlyChanges (Opcode.writes .erpush) s (s.opErpush r c o) :=
  (s.opErpush_frame r c o).mono (by split <;> decide)

theorem State.opKeystep_writes (s : State) (h : Half) (r c : Idx) :
    OnlyChanges (Opcode.writes .keystep) s (s.opKeystep h r c) := by
  cases hr : (s.key r c).inRange s.cfg.steady with
  | true =>
    obtain ⟨-, -, -, hframe, -⟩ := State.opKeystep_inRange h hr
    exact hframe.mono (by decide)
  | false =>
    rw [State.opKeystep_outOfRange h hr]
    exact (s.opSbrd_frame h r).trans (State.violate_frame _ r c) (by decide)

/-- An operation writes no field outside its list. -/
theorem exec_frame {i : Instr} {s t : State} (h : exec i s = .next t) : OnlyChanges (Opcode.writes i.opcode) s t := by
  rcases exec_cases h with ⟨a, rfl⟩ | ⟨pol, rfl, -, hb, ⟨-, rfl⟩ | ⟨-, rfl⟩⟩ | ⟨k, r, w, rfl, -, -, rfl⟩ |
    ⟨k, rfl, -, -, rfl⟩ | ⟨e, rest, rfl, -, rfl⟩ | ⟨rfl, -, -, rfl⟩ | ⟨r, c, x, rfl, -, rfl⟩ | ⟨r, c, rfl, -, rfl⟩ |
    ⟨r, c, b, rfl, -, rfl⟩ | ⟨r, c, o, rfl, -, rfl⟩ | ⟨k, r, rfl, -, rfl⟩ | ⟨k, r, c, rfl, -, rfl⟩
  · exact (s.withAnswer_frame a).mono (by simpa using answer_mem_writes i.opcode)
  · exact (State.initReady_frame pol hb).doneWith (gs := Opcode.writes .init) _ (by decide)
  · exact (s.takeFault_frame _).doneWith (gs := Opcode.writes .init) _ (by decide)
  · exact (s.setSnap_frame k r w).trans (ks := Opcode.writes .sbwr) (State.withAnswer_frame _ _) (by decide)
  · exact (s.beginDispatch_frame k).trans (ks := Opcode.writes .notify) (State.withAnswer_frame _ _) (by decide)
  · intro f hf
    cases f <;> simp [FieldName.same, Instr.opcode, Opcode.writes] at hf ⊢
  · exact s.abortDispatch_frame.trans (ks := Opcode.writes .stop) (State.withAnswer_frame _ _) (by decide)
  · exact s.opDebupd_writes r c x
  · exact (s.withLatch_frame _).mono (gs := Opcode.writes .debout) (by decide)
  · exact (s.opSswr_frame r c b).mono (gs := Opcode.writes .sswr) (by decide)
  · exact s.opErpush_writes r c o
  · exact (s.opSbrd_frame k r).mono (gs := Opcode.writes .sbrd) (by decide)
  · exact s.opKeystep_writes k r c

/-- What the lists of each agent's operations hold, and who writes snapshot words, Debouncers and the StateStore
(10_state.md section 11). -/
theorem writes_by_issuer (o : Opcode) :
    (o.issuer = .reader → Opcode.writes o ⊆ [.answer]) ∧
    (o.issuer = .consumer → Opcode.writes o ⊆ [.eq, .answer]) ∧
    (o.issuer = .rowDriver → Opcode.writes o ⊆ [.snap, .busy, .cur, .stage, .answer]) ∧
    (o.issuer ≠ .rowDriver → .cur ∉ Opcode.writes o) ∧ .cfg ∉ Opcode.writes o ∧
    (o ≠ .sbwr → .snap ∉ Opcode.writes o) ∧
    (o.isPort = true → o ≠ .init → .keys ∉ Opcode.writes o ∧ .ss ∉ Opcode.writes o) := by
  cases o <;> decide

/-- Settles O55: an operation writes no field outside its list, and the lists are those of its agent. -/
theorem accessRightsByAgent : Obligations.AccessRightsByAgent := by
  intro s t i h
  have hframe := exec_frame h
  obtain ⟨hreader, hconsumer, hdriver, hcur, hcfg, hsnap, hkeys⟩ := writes_by_issuer i.opcode
  have hsbwr (a : Agent) (ha : i.opcode.issuer = a) (hne : a ≠ .rowDriver) : i.opcode ≠ .sbwr := fun ho => by
    rw [ho] at ha
    exact hne ha.symm
  refine ⟨fun ho => hframe.mono (hreader ho), fun ho => hframe.mono (hconsumer ho), fun ho => hframe.mono (hdriver ho),
    fun ho => ⟨hframe .snap (hsnap (hsbwr _ ho nofun)), hframe .cur (hcur (by simp [ho])), hframe .cfg hcfg⟩,
    fun ho => ⟨hframe .snap (hsnap (hsbwr _ ho nofun)), hframe .cfg hcfg, hframe .cur (hcur (by simp [ho]))⟩,
    fun ho => hframe .snap (hsnap ho), fun hp ho => ⟨hframe .keys (hkeys hp ho).1, hframe .ss (hkeys hp ho).2⟩⟩

/-! ### What the head of the inbox makes of a step -/

section
variable {s : State}

theorem step_nil (hi : s.inbox = []) : step s = turnKey s := by
  simp [step, nextMove, hi]

variable {rest : List Slot}

theorem step_engineMicro (hi : s.inbox = .engineMicro :: rest) : step s = turnMicro (s.withInbox rest) := by
  simp [step, nextMove, hi, serve]

theorem step_engineKey (hi : s.inbox = .engineKey :: rest) : step s = turnKey (s.withInbox rest) := by
  simp [step, nextMove, hi, serve]

theorem step_powerOn (hi : s.inbox = .powerOn :: rest) : step s = .next (s.withInbox rest).resetPower := by
  simp [step, nextMove, hi, serve]

theorem step_port {w : CmdWord} {i : Instr} (hi : s.inbox = .port w :: rest) (hd : decode w = .ok i)
    (hp : i.opcode.isPort = true) : step s = exec i (s.withInbox rest) := by
  simp [step, nextMove, hi, serve, servePort, decodePort, hd, hp]

theorem step_bench {w : CmdWord} {i : Instr} (hi : s.inbox = .bench w :: rest) (hd : decode w = .ok i)
    (hp : i.opcode.isPort = false) : step s = exec i (s.withInbox rest) := by
  simp [step, nextMove, hi, serve, serveBench, decodeMicro, hd, hp]

end

/-! ### The engine's turns -/

section
variable {s : State}

theorem turnMicro_idle (ha : s.active = false) : turnMicro s = .next s := by
  simp [turnMicro, ha]

theorem turnKey_idle (ha : s.active = false) : turnKey s = .next s := by
  simp [turnKey, ha, turnMicro_idle ha]

/-- Inside a key step a key-step turn performs the next micro operation. -/
theorem turnKey_inside (hg : s.stage ≠ .keyStart) : turnKey s = turnMicro s := by
  simp [turnKey, hg]

variable {r c : Idx}

theorem turnMicro_due (ha : s.active = true) (hk : s.dueKey = some (r, c)) :
    turnMicro s = Outcome.andThen (exec (s.nextMicro r c) s) (State.afterMicro s.stage) := by
  simp [turnMicro, ha, hk]

theorem turnKey_due (ha : s.active = true) (hg : s.stage = .keyStart) (hk : s.dueKey = some (r, c)) :
    turnKey s = Outcome.andThen (exec (.keystep s.cur.h r c) s) State.finishKey := by
  simp [turnKey, ha, hg, hk]

/-- What the micro operation due for key (r,c) does to the state. -/
def State.microEffect (s : State) (r c : Idx) : State :=
  match s.stage with
  | .keyStart => s.opSbrd s.cur.h r
  | .update => s.opDebupd r c (pinSelect s.cfg s.latch.word r c)
  | .output => s.opDebout r c
  | .publish => s.opSswr r c s.latch.output
  | .forward => s.opErpush r c s.latch.output

/-- The key the engine works on is in the matrix, so the micro operation due passes its index check. -/
theorem exec_nextMicro (hk : s.dueKey = some (r, c)) : exec (s.nextMicro r c) s = .next (s.microEffect r c) := by
  have hm := (State.dueKey_spec hk).1
  unfold State.nextMicro State.microEffect
  cases s.stage with
  | keyStart => exact exec_sbrd _ (inRow_iff.2 (inMatrix_iff.1 hm).1)
  | update => exact exec_debupd _ hm
  | output => exact exec_debout hm
  | publish => exact exec_sswr _ hm
  | forward => exact exec_erpush _ hm

/-- A whole turn of the engine for key (r,c): the micro operation due, and the move of the engine's place. -/
def State.microTurn (s : State) (r c : Idx) : State := State.afterMicro s.stage (s.microEffect r c)

theorem turnMicro_eq (ha : s.active = true) (hk : s.dueKey = some (r, c)) : turnMicro s = .next (s.microTurn r c) := by
  rw [turnMicro_due ha hk, exec_nextMicro hk]
  rfl

theorem turnKey_eq (ha : s.active = true) (hg : s.stage = .keyStart) (hk : s.dueKey = some (r, c)) :
    turnKey s = .next (s.opKeystep s.cur.h r c).finishKey := by
  rw [turnKey_due ha hg hk, exec_keystep _ (State.dueKey_spec hk).1]
  rfl

end

theorem turnMicro_total (s : State) : ∃ t, turnMicro s = .next t := by
  rcases turnMicro_cases (s := s) rfl with ⟨-, e⟩ | ⟨-, -, e⟩ | ⟨r, c, ha, hk, -⟩
  · exact ⟨_, e⟩
  · exact ⟨_, e⟩
  · exact ⟨_, turnMicro_eq ha hk⟩

theorem turnKey_total (s : State) : ∃ t, turnKey s = .next t := by
  rcases turnKey_cases (s := s) rfl with ⟨-, -, -, e⟩ | ⟨r, c, -, -, -, e⟩ | ⟨-, e⟩
  · exact ⟨_, e⟩
  · exact ⟨_, e⟩
  · exact e ▸ turnMicro_total s

/-- What an engine's move gives: nothing to do, a cursor off the matrix, a whole key step, or one micro operation with
the move of the engine's place. -/
theorem EngineMoved.cases {s t : State} (h : EngineMoved s t) :
    (t = s ∧ s.active = false) ∨ (t = s.endDispatch ∧ s.active = true ∧ s.dueKey = none) ∨
    (∃ r c, s.active = true ∧ s.stage = .keyStart ∧ s.dueKey = some (r, c) ∧
      t = (s.opKeystep s.cur.h r c).finishKey) ∨
    (∃ r c, s.active = true ∧ s.dueKey = some (r, c) ∧ t = s.microTurn r c) := by
  rcases h with h | h | h | ⟨r, c, u, ha, hk, hu, rfl⟩
  · exact .inl h
  · exact .inr (.inl h)
  · exact .inr (.inr (.inl h))
  · rw [exec_nextMicro hk] at hu
    cases hu
    exact .inr (.inr (.inr ⟨r, c, ha, hk, rfl⟩))

/-- Settles O6: each clause is what the head of the inbox makes of the step, and what that turn is. -/
theorem stepRunsDecodedInstruction : Obligations.StepRunsDecodedInstruction := by
  refine ⟨fun s w rest i hi hd hp => step_port hi hd hp, fun s w rest i hi hd hp => step_bench hi hd hp,
    fun s rest r c hi ha hk => ?_, fun s r c ha hg hk => ⟨fun hi => ?_, fun rest hi => ?_⟩,
    fun s r c ha hg hk => ⟨fun hi => ?_, fun rest hi => ?_⟩,
    fun s ha => ⟨fun hi => ?_, fun rest hi => ?_⟩, fun s hk => ⟨?_, State.dueKey_of_cursor hk⟩⟩
  · rw [step_engineMicro hi]
    exact turnMicro_due (s := s.withInbox rest) ha hk
  · rw [step_nil hi, turnKey_due ha hg hk]
  · rw [step_engineKey hi]
    exact turnKey_due (s := s.withInbox rest) ha hg hk
  · rw [step_nil hi, turnKey_inside hg, turnMicro_due ha hk]
  · rw [step_engineKey hi, turnKey_inside (s := s.withInbox rest) hg]
    exact turnMicro_due (s := s.withInbox rest) ha hk
  · rw [step_nil hi, turnKey_idle ha]
  · rcases hi with hi | hi
    · rw [step_engineMicro hi, turnMicro_idle (s := s.withInbox rest) ha]
    · rw [step_engineKey hi, turnKey_idle (s := s.withInbox rest) ha]
  · simp [State.active, hk]

/-- Settles O57: a turn of the engine always gives a next state. -/
theorem engineAlwaysEnabled : Obligations.EngineAlwaysEnabled := by
  rintro s rest - (hi | hi | hi)
  · exact step_nil hi ▸ turnKey_total s
  · exact step_engineMicro hi ▸ turnMicro_total _
  · exact step_engineKey hi ▸ turnKey_total _

/-! ### The only stop -/

theorem exec_ne_refused (i : Instr) (s : State) (q : Refusal) : exec i s ≠ .refused q := by
  cases i with
  | sbwr h r w =>
    simp only [exec, execSbwr]
    (repeat' split) <;> exact nofun
  | notify h =>
    simp only [exec, execNotify]
    (repeat' split) <;> exact nofun
  | _ => exact nofun

/-- An operation stops the machine exactly when it is an Overrun (41_keymatrix.md R100, R108). -/
theorem exec_fault_iff {i : Instr} {s : State} {f : Fault} :
    exec i s = .fault f ↔ s.busy = true ∧
      ((∃ h, i = .notify h ∧ s.phase = .ready ∧ f = .overrunNotify h) ∨
       (∃ h r v, i = .sbwr h r v ∧ inRow s.cfg r = true ∧ s.cur.h = h ∧ f = .overrunWrite h r)) := by
  constructor
  · intro h
    cases i with
    | sbwr k r w =>
      simp only [exec, execSbwr] at h
      split at h
      · split at h
        · rename_i hr hb
          obtain ⟨hb, hh⟩ : s.busy = true ∧ s.cur.h = k := by simpa using hb
          cases h
          exact ⟨hb, .inr ⟨k, r, w, rfl, hr, hh, rfl⟩⟩
        · cases h
      · cases h
    | notify k =>
      simp only [exec, execNotify] at h
      split at h
      · split at h
        · cases h
          exact ⟨‹_›, .inl ⟨k, rfl, ‹_›, rfl⟩⟩
        · cases h
      · cases h
    | _ => cases h
  · rintro ⟨hb, ⟨h, rfl, hp, rfl⟩ | ⟨h, r, v, rfl, hr, hh, rfl⟩⟩
    · exact exec_notify_overrun h hp hb
    · exact exec_sbwr_overrun v hr hb hh

theorem exec_micro_total {i : Instr} (hm : i.opcode.isPort = false) (s : State) : ∃ t, exec i s = .next t := by
  cases i with
  | debupd r c x => exact ⟨_, rfl⟩
  | debout r c => exact ⟨_, rfl⟩
  | sswr r c b => exact ⟨_, rfl⟩
  | erpush r c o => exact ⟨_, rfl⟩
  | sbrd h r => exact ⟨_, rfl⟩
  | keystep h r c => exact ⟨_, rfl⟩
  | _ => cases hm

/-- A step completes, or it is an operation at a port. -/
theorem step_completes_or_port (s : State) :
    (∃ t, step s = .next t) ∨
    ∃ w rest i, s.inbox = .port w :: rest ∧ decode w = .ok i ∧ step s = exec i (s.withInbox rest) := by
  rcases step_cases (s := s) rfl with ⟨-, e⟩ | ⟨rest, w, i, hi, hd, -, e⟩ | ⟨rest, w, -, e⟩ |
    ⟨rest, w, i, -, -, hm, e⟩ | ⟨rest, w, -, e⟩ | ⟨rest, -, e⟩ | ⟨rest, -, e⟩ | ⟨rest, -, e⟩
  · exact .inl (e ▸ turnKey_total s)
  · exact .inr ⟨w, rest, i, hi, hd, e.symm⟩
  · exact .inl ⟨_, e⟩
  · exact .inl (e ▸ exec_micro_total hm _)
  · exact .inl ⟨_, e⟩
  · exact .inl (e ▸ turnMicro_total _)
  · exact .inl (e ▸ turnKey_total _)
  · exact .inl ⟨_, e⟩

/-- Settles O54: only an operation at a port can stop, and only by an Overrun. -/
theorem overrunIsTheOnlyStop : Obligations.OverrunIsTheOnlyStop := by
  refine ⟨fun s q hs => ?_, fun s f => ⟨fun hs => ?_, ?_⟩⟩
  · rcases step_completes_or_port s with ⟨t, e⟩ | ⟨w, rest, i, -, -, e⟩
    · cases e.symm.trans hs
    · exact exec_ne_refused i _ q (e.symm.trans hs)
  · rcases step_completes_or_port s with ⟨t, e⟩ | ⟨w, rest, i, hi, hd, e⟩
    · cases e.symm.trans hs
    · obtain ⟨hb, ⟨h, rfl, hp, hf⟩ | ⟨h, r, v, rfl, hr, hh, hf⟩⟩ := exec_fault_iff.1 (e.symm.trans hs)
      · exact ⟨hb, w, rest, hi, .inl ⟨h, hd, hp, hf⟩⟩
      · exact ⟨hb, w, rest, hi, .inr ⟨h, r, v, hd, hr, hh, hf⟩⟩
  · rintro ⟨hb, w, rest, hi, ⟨h, hd, hp, rfl⟩ | ⟨h, r, v, hd, hr, hh, rfl⟩⟩
    · rw [step_port hi hd rfl]
      exact exec_notify_overrun (s := s.withInbox rest) h hp hb
    · rw [step_port hi hd rfl]
      exact exec_sbwr_overrun (s := s.withInbox rest) v hr hb hh

/-! ### The configuration and the queue under a step -/

/-- From s to u the head of the inbox, if there is one, has been taken; it is what `step_moves` says of its u. -/
def HeadTaken (s u : State) : Prop := (s.inbox = [] ∧ u = s) ∨ ∃ m rest, s.inbox = m :: rest ∧ u = s.withInbox rest

theorem HeadTaken.frame {s u : State} (h : HeadTaken s u) : OnlyChanges [.inbox] s u := by
  rcases h with ⟨-, rfl⟩ | ⟨m, rest, -, rfl⟩
  · exact OnlyChanges.refl _ _
  · exact (OnlyChanges.refl [] (s.withInbox rest)).of_withInbox (by decide)

theorem exec_cfg {i : Instr} {s t : State} (h : exec i s = .next t) : t.cfg = s.cfg :=
  have ⟨_, _, _, _, hcfg, _, _⟩ := writes_by_issuer i.opcode
  exec_frame h .cfg hcfg

/-- The move of the engine's place writes none of the registers the world sees but `busy` and the cursor. -/
theorem State.afterMicro_frame (g : Stage) (s : State) :
    OnlyChanges [.busy, .stage, .cutKey, .cur] s (s.afterMicro g) := by
  have hstage (v : Stage) : OnlyChanges [.busy, .stage, .cutKey, .cur] s (s.withStage v) := fun f hf => by
    cases f <;> simp [FieldName.same] at hf ⊢
  cases g with
  | update =>
    unfold State.afterMicro
    simp only
    split
    · exact hstage .output
    · exact s.finishKey_frame
  | keyStart => exact hstage .update
  | output => exact hstage .publish
  | publish => exact hstage .forward
  | forward => exact s.finishKey_frame

theorem State.microTurn_cfg {s : State} {r c : Idx} (hk : s.dueKey = some (r, c)) : (s.microTurn r c).cfg = s.cfg :=
  Eq.trans (State.afterMicro_frame s.stage (s.microEffect r c) .cfg (by decide)) (exec_cfg (exec_nextMicro hk))

theorem EngineMoved.cfg_eq {s t : State} (h : EngineMoved s t) : t.cfg = s.cfg := by
  rcases h.cases with ⟨rfl, -⟩ | ⟨rfl, -, -⟩ | ⟨r, c, -, -, -, rfl⟩ | ⟨r, c, -, hk, rfl⟩
  · rfl
  · rfl
  · simp
  · exact State.microTurn_cfg hk

/-- Settles O51. -/
theorem configurationIsConstant : Obligations.ConfigurationIsConstant := by
  intro s t h
  obtain ⟨u, hu, hmove⟩ := step_moves h
  refine Eq.trans ?_ (HeadTaken.frame hu .cfg (by decide))
  rcases hmove with ⟨w, rest, i, -, -, -, e⟩ | ⟨w, rest, i, -, -, -, e⟩ | rfl | he | ⟨rest, -, rfl⟩
  · exact exec_cfg e
  · exact exec_cfg e
  · rfl
  · exact he.cfg_eq
  · rfl

/-- The queue is kept, or one record longer at the tail where there was room, or without its head (43_eventrelay.md
R131, R134). -/
def QueueMoved (s t : State) : Prop :=
  t.eq = s.eq ∨ (∃ e, t.eq = s.eq ++ [e] ∧ s.eq.length < s.cfg.queueCap) ∨ (∃ e, s.eq = e :: t.eq)

theorem State.opErpush_queueMoved (s : State) (r c : Idx) (o : Level) : QueueMoved s (s.opErpush r c o) := by
  obtain ⟨htaken, hdropped, -⟩ := s.opErpush_queue r c o
  cases ht : (s.opErpush r c o).latch.taken with
  | true => exact .inr (.inl ⟨_, htaken ht⟩)
  | false => exact .inl (hdropped ht)

theorem State.opKeystep_queueMoved (s : State) (h : Half) (r c : Idx) : QueueMoved s (s.opKeystep h r c) := by
  have heq : (s.sampled h r c).eq = s.eq := by simp [State.sampled]
  have hcfg : (s.sampled h r c).cfg = s.cfg := by simp [State.sampled]
  rw [State.opKeystep_eq]
  split
  · have := State.opErpush_queueMoved
      (((s.sampled h r c).opDebout r c).opSswr r c ((s.sampled h r c).key r c).fsm.out) r c
      ((s.sampled h r c).key r c).fsm.out
    simpa [QueueMoved, State.forwarded, heq, hcfg] using this
  · exact .inl heq

/-- INIT apart, an operation moves the queue in one of three ways. -/
theorem exec_queue {i : Instr} {s t : State} (h : exec i s = .next t) :
    QueueMoved s t ∨ (t.eq = [] ∧ ∃ pol, i = .init pol) := by
  rcases exec_cases h with ⟨a, rfl⟩ | ⟨pol, rfl, -, -, ⟨-, rfl⟩ | ⟨-, rfl⟩⟩ | ⟨k, r, w, rfl, -, -, rfl⟩ |
    ⟨k, rfl, -, -, rfl⟩ | ⟨e, rest, rfl, hq, rfl⟩ | ⟨rfl, -, -, rfl⟩ | ⟨r, c, x, rfl, -, rfl⟩ | ⟨r, c, rfl, -, rfl⟩ |
    ⟨r, c, b, rfl, -, rfl⟩ | ⟨r, c, o, rfl, -, rfl⟩ | ⟨k, r, rfl, -, rfl⟩ | ⟨k, r, c, rfl, -, rfl⟩
  · exact .inl (.inl rfl)
  · by_cases hclear : (s.cfg.initClearsRelay || s.phase == .uninit) = true
    · exact .inr ⟨by rw [State.doneWith_eq, State.initReady_eq, if_pos hclear], pol, rfl⟩
    · exact .inl (.inl (by rw [State.doneWith_eq, State.initReady_eq, if_neg hclear]))
  · exact .inl (.inl rfl)
  · exact .inl (.inl rfl)
  · exact .inl (.inl rfl)
  · exact .inl (.inr (.inr ⟨e, hq⟩))
  · exact .inl (.inl rfl)
  · exact .inl (.inl (by simp))
  · exact .inl (.inl rfl)
  · exact .inl (.inl rfl)
  · exact .inl (s.opErpush_queueMoved r c o)
  · exact .inl (.inl (by simp))
  · exact .inl (s.opKeystep_queueMoved k r c)

/-- A micro operation is no INIT. -/
theorem exec_micro_queue {i : Instr} {s t : State} (h : exec i s = .next t) (hm : i.opcode.isPort = false) :
    QueueMoved s t := by
  rcases exec_queue h with hq | ⟨-, pol, rfl⟩
  · exact hq
  · cases hm

theorem State.nextMicro_isPort (s : State) (r c : Idx) : (s.nextMicro r c).opcode.isPort = false := by
  unfold State.nextMicro
  cases s.stage <;> rfl

theorem EngineMoved.queueMoved {s t : State} (h : EngineMoved s t) : QueueMoved s t := by
  rcases h with ⟨rfl, -⟩ | ⟨rfl, -, -⟩ | ⟨r, c, -, -, -, rfl⟩ | ⟨r, c, u, -, -, hu, rfl⟩
  · exact .inl rfl
  · exact .inl rfl
  · simpa [QueueMoved] using s.opKeystep_queueMoved s.cur.h r c
  · have hq := State.afterMicro_frame s.stage u .eq (by decide)
    simpa [QueueMoved, show (State.afterMicro s.stage u).eq = u.eq from hq] using
      exec_micro_queue hu (s.nextMicro_isPort r c)

/-- Settles O37: outside power-on and INIT the queue moves as `QueueMoved` says. -/
theorem relayIsBoundedFifo : Obligations.RelayIsBoundedFifo := by
  intro s t h
  suffices hmoved : QueueMoved s t ∨ (t.eq = [] ∧ ((∃ rest, s.inbox = .powerOn :: rest) ∨
      ∃ (pol : Level) (w : CmdWord) (rest : List Slot), s.inbox = .port w :: rest ∧ decode w = .ok (.init pol))) by
    rcases hmoved with (e | e | e) | e
    · exact .inl e
    · exact .inr (.inl e)
    · exact .inr (.inr (.inl e))
    · exact .inr (.inr (.inr e))
  obtain ⟨u, hu, hmove⟩ := step_moves h
  have heq : u.eq = s.eq := HeadTaken.frame hu .eq (by decide)
  have hcfg : u.cfg = s.cfg := HeadTaken.frame hu .cfg (by decide)
  have hqueue : QueueMoved u t ↔ QueueMoved s t := by rw [QueueMoved, QueueMoved, heq, hcfg]
  rw [← hqueue]
  rcases hmove with ⟨w, rest, i, hi, hd, -, e⟩ | ⟨w, rest, i, -, -, hm, e⟩ | rfl | he | ⟨rest, hi, rfl⟩
  · rcases exec_queue e with hq | ⟨hnil, pol, rfl⟩
    · exact .inl hq
    · exact .inr ⟨hnil, .inr ⟨pol, w, rest, hi, hd⟩⟩
  · exact .inl (exec_micro_queue e hm)
  · exact .inl (.inl rfl)
  · exact .inl he.queueMoved
  · exact .inr ⟨rfl, .inl ⟨rest, hi⟩⟩

/-! ### Power-on -/

/-- Settles O46. -/
theorem powerOnState : Obligations.PowerOnState :=
  ⟨⟨rfl, rfl, rfl⟩, fun _ => ⟨rfl, rfl, rfl, rfl, fun _ _ => rfl⟩,
    fun _ _ hi => ⟨_, step_powerOn hi, rfl, rfl, rfl, rfl, rfl, fun _ _ => rfl⟩⟩

end Sys2Proof.Machine
end

section
/-! The key step as turns of the engine (41_keymatrix.md R105, 20_memory.md R50): the turn of each stage, the whole
KEYSTEP as a sequence of such turns, and the theorem that settles O30. -/

namespace Sys2Proof.Machine

/-! ### The turn of each stage -/

/-- The engine has something to do, and it is a key step of key (r,c). -/
def Working (r c : Idx) (s : State) : Prop := s.active = true ∧ s.dueKey = some (r, c)

/-- What the engine works on depends on four fields. -/
theorem Working.of_frame {r c : Idx} {fs : List FieldName} {s t : State} (h : Working r c s) (hf : OnlyChanges fs s t)
    (hfs : ∀ f ∈ fs, f ∉ [FieldName.busy, .cutKey, .cur, .cfg]) : Working r c t := by
  have hsame (f : FieldName) (hm : f ∈ [FieldName.busy, .cutKey, .cur, .cfg]) : f.same s t :=
    hf f fun hin => hfs f hin hm
  obtain ⟨ha, hk⟩ := h
  exact ⟨(State.active_congr (hsame .busy (by decide)) (hsame .cutKey (by decide))).trans ha,
    (State.dueKey_congr (hsame .cur (by decide)) (hsame .cfg (by decide)) (hsame .cutKey (by decide))).trans hk⟩

theorem HeadTaken.working {r c : Idx} {s u : State} (h : HeadTaken s u) (hw : Working r c s) : Working r c u :=
  hw.of_frame h.frame (by decide)

theorem Working.withStage {r c : Idx} {s : State} (h : Working r c s) (g : Stage) : Working r c (s.withStage g) := h

section
variable {s : State} (r c : Idx)

theorem State.microTurn_keyStart (hg : s.stage = .keyStart) :
    s.microTurn r c = (s.opSbrd s.cur.h r).withStage .update := by
  simp [State.microTurn, State.microEffect, State.afterMicro, hg]

/-- The state after the DEBUPD that is due in stage `update`. -/
def State.updated (s : State) (r c : Idx) : State := s.opDebupd r c (pinSelect s.cfg s.latch.word r c)

theorem State.microTurn_update (hg : s.stage = .update) :
    s.microTurn r c =
      if (s.updated r c).latch.changed then (s.updated r c).withStage .output else (s.updated r c).finishKey := by
  have he : s.microEffect r c = s.updated r c := by simp [State.microEffect, State.updated, hg]
  rw [State.microTurn, he, hg]
  rfl

theorem State.microTurn_output (hg : s.stage = .output) : s.microTurn r c = (s.opDebout r c).withStage .publish := by
  simp [State.microTurn, State.microEffect, State.afterMicro, hg]

theorem State.microTurn_publish (hg : s.stage = .publish) :
    s.microTurn r c = (s.opSswr r c s.latch.output).withStage .forward := by
  simp [State.microTurn, State.microEffect, State.afterMicro, hg]

theorem State.microTurn_forward (hg : s.stage = .forward) :
    s.microTurn r c = (s.opErpush r c s.latch.output).finishKey := by
  simp [State.microTurn, State.microEffect, State.afterMicro, hg]

end

/-! ### The engine's place in a key step commutes with its operations -/

/-- The end of a key step writes the stage, so what the stage was does not matter. -/
theorem State.finishKey_withStage {s : State} (g : Stage) (ha : s.active = true) :
    (s.withStage g).finishKey = s.finishKey := by
  cases hk : s.cutKey with
  | some k => simp [State.finishKey, hk]; rfl
  | none =>
    have hb : s.busy = true := by simpa [State.active_iff, hk] using ha
    simp only [State.finishKey, State.withStage_cutKey, State.withStage_busy, hk, hb]
    rfl

/-- DEBUPD on a counter in range keeps the stage and does not look at it. -/
theorem State.opDebupd_withStage {s : State} {r c : Idx} (x : Level) (g : Stage)
    (hr : (s.key r c).inRange s.cfg.steady = true) :
    (s.withStage g).opDebupd r c x = (s.opDebupd r c x).withStage g := by
  rw [State.opDebupd_inRange (s := s.withStage g) x hr, State.opDebupd_inRange x hr]
  rfl

/-- A violation keeps the stage in a defensive build, and writes it in a debug build. -/
theorem State.violate_withStage (s : State) (r c : Idx) (g : Stage) :
    (s.withStage g).violate r c = (s.violate r c).withStage g ∧ (s.violate r c).active = s.active ∨
    (s.withStage g).violate r c = s.violate r c := by
  unfold State.violate
  cases hb : s.cfg.buildMode with
  | defensive => exact .inl (by simp [hb]; exact ⟨rfl, rfl⟩)
  | debug => exact .inr (by simp [hb]; rfl)

theorem Working.opDebupd {r c : Idx} {s : State} (h : Working r c s) (x : Level)
    (hr : (s.key r c).inRange s.cfg.steady = true) : Working r c (s.opDebupd r c x) :=
  h.of_frame (State.opDebupd_frame x hr) (by decide)

/-- The stage before a DEBUPD that ends the key step does not matter, in either build mode. -/
theorem State.finishKey_opDebupd_withStage {s : State} (r c : Idx) (x : Level) (g : Stage) (ha : s.active = true) :
    ((s.withStage g).opDebupd r c x).finishKey = (s.opDebupd r c x).finishKey := by
  cases hr : (s.key r c).inRange s.cfg.steady with
  | true =>
    have hframe := State.opDebupd_frame x hr
    have ha' : (s.opDebupd r c x).active = s.active :=
      State.active_congr (hframe .busy (by decide)) (hframe .cutKey (by decide))
    rw [State.opDebupd_withStage x g hr, State.finishKey_withStage g (ha'.trans ha)]
  | false =>
    rw [State.opDebupd_outOfRange x hr, State.opDebupd_outOfRange (s := s.withStage g) x hr]
    rcases s.violate_withStage r c g with ⟨e, ha'⟩ | e
    · rw [e, State.finishKey_withStage g (ha'.trans ha)]
    · rw [e]

/-- Nor does it matter for the flag. -/
theorem State.changed_opDebupd_withStage (s : State) (r c : Idx) (x : Level) (g : Stage) :
    ((s.withStage g).opDebupd r c x).latch.changed = (s.opDebupd r c x).latch.changed := by
  cases hr : (s.key r c).inRange s.cfg.steady with
  | true =>
    rw [State.opDebupd_withStage x g hr]
    rfl
  | false =>
    rw [State.opDebupd_outOfRange x hr, State.opDebupd_outOfRange (s := s.withStage g) x hr, State.violate_changed,
      State.violate_changed]

/-- A DEBUPD that reports a change had its counter in range. -/
theorem State.inRange_of_changed {s : State} {r c : Idx} {x : Level} (h : (s.opDebupd r c x).latch.changed = true) :
    (s.key r c).inRange s.cfg.steady = true := by
  by_contra hr
  rw [State.opDebupd_outOfRange x (Bool.eq_false_iff.2 hr), State.violate_changed] at h
  cases h

/-! ### A sequence of turns on one key -/

/-- n turns of the engine lead from s to t, each of them on key (r,c). -/
inductive Turns (r c : Idx) : Nat → State → State → Prop where
  | none (s : State) : Turns r c 0 s s
  | turn {n : Nat} {s t : State} (h : Working r c s) (ht : Turns r c n (s.microTurn r c) t) : Turns r c (n + 1) s t

/-- The last turn of a sequence, by what it gives. -/
theorem Turns.last {r c : Idx} {s t : State} (h : Working r c s) (he : s.microTurn r c = t) : Turns r c 1 s t :=
  .turn h (he ▸ .none _)

/-- A turn of a sequence, by what it gives. -/
theorem Turns.next {r c : Idx} {n : Nat} {s t u : State} (h : Working r c s) (he : s.microTurn r c = u)
    (ht : Turns r c n u t) : Turns r c (n + 1) s t := .turn h (he ▸ ht)

/-- The state inside a key step that waits for its DEBUPD. -/
def State.atUpdate (s : State) (r : Idx) : State := (s.opSbrd s.cur.h r).withStage .update

theorem Working.atUpdate {r c : Idx} {s : State} (h : Working r c s) : Working r c (s.atUpdate r) :=
  (h.of_frame (s.opSbrd_frame s.cur.h r) (by decide)).withStage .update

theorem State.updated_atUpdate (s : State) (r c : Idx) :
    (s.atUpdate r).updated r c = ((s.opSbrd s.cur.h r).withStage .update).opDebupd r c (s.stepSample s.cur.h r c) := by
  simp [State.updated, State.atUpdate, State.stepSample]

/-- Publishing and forwarding are three turns. -/
theorem Turns.forwarded {r c : Idx} {u : State} (h : Working r c u) :
    Turns r c 3 (u.withStage .output) (u.forwarded r c).finishKey := by
  have hf : ((u.forwarded r c).withStage .forward).finishKey = (u.forwarded r c).finishKey :=
    State.finishKey_withStage _ h.1
  rw [← hf]
  refine .next (h.withStage .output) (State.microTurn_output r c rfl) ?_
  refine .next (h.withStage .publish) (State.microTurn_publish r c rfl) ?_
  exact .last (h.withStage .forward) (State.microTurn_forward r c rfl)

/-- A whole KEYSTEP and the end of its key step are two turns, or five when the output changes. -/
theorem Turns.keystep {r c : Idx} {s : State} (h : Working r c s) (hg : s.stage = .keyStart) :
    Turns r c (if (s.opKeystep s.cur.h r c).latch.changed then 5 else 2) s (s.opKeystep s.cur.h r c).finishKey := by
  have hsbrd : s.microTurn r c = s.atUpdate r := State.microTurn_keyStart r c hg
  have hwork : Working r c (s.opSbrd s.cur.h r) := h.of_frame (s.opSbrd_frame s.cur.h r) (by decide)
  have hdebupd := State.microTurn_update (s := s.atUpdate r) r c rfl
  rw [State.updated_atUpdate] at hdebupd
  rw [State.opKeystep_eq]
  cases hc : (s.sampled s.cur.h r c).latch.changed with
  | false =>
    have hend : ((s.atUpdate r).microTurn r c) = (s.sampled s.cur.h r c).finishKey := by
      rw [hdebupd, State.changed_opDebupd_withStage, State.finishKey_opDebupd_withStage r c _ _ hwork.1]
      exact if_neg (Bool.eq_false_iff.1 hc)
    simpa [hc] using Turns.next h hsbrd (.last h.atUpdate hend)
  | true =>
    have hr := State.inRange_of_changed hc
    have hmid : ((s.atUpdate r).microTurn r c) = (s.sampled s.cur.h r c).withStage .output := by
      rw [hdebupd, State.opDebupd_withStage _ _ hr]
      exact if_pos hc
    simpa [hc] using Turns.next h hsbrd (.next h.atUpdate hmid (.forwarded (hwork.opDebupd _ hr)))

/-! ### The turns as moves of the inbox -/

theorem State.opSbrd_withInbox (s : State) (m : List Slot) (h : Half) (r : Idx) :
    (s.withInbox m).opSbrd h r = (s.opSbrd h r).withInbox m := by
  rw [State.opSbrd_update, State.opSbrd_update]
  rfl

theorem State.violate_withInbox (s : State) (m : List Slot) (r c : Idx) :
    (s.withInbox m).violate r c = (s.violate r c).withInbox m := by
  rcases s.violate_spec r c with ⟨hb, e⟩ | ⟨hb, e⟩ <;>
    rcases (s.withInbox m).violate_spec r c with ⟨hb', e'⟩ | ⟨hb', e'⟩
  · rw [e, e']; rfl
  · cases hb.symm.trans hb'
  · cases hb.symm.trans hb'
  · rw [e, e']; rfl

theorem State.opDebupd_withInbox (s : State) (m : List Slot) (r c : Idx) (x : Level) :
    (s.withInbox m).opDebupd r c x = (s.opDebupd r c x).withInbox m := by
  cases hr : (s.key r c).inRange s.cfg.steady with
  | true =>
    rw [State.opDebupd_inRange x hr, State.opDebupd_inRange (s := s.withInbox m) x hr]
    rfl
  | false =>
    rw [State.opDebupd_outOfRange x hr, State.opDebupd_outOfRange (s := s.withInbox m) x hr, State.violate_withInbox]

theorem State.finishKey_withInbox (s : State) (m : List Slot) :
    (s.withInbox m).finishKey = s.finishKey.withInbox m := by
  cases hk : s.cutKey with
  | some k => simp [State.finishKey, hk]; rfl
  | none =>
    cases hb : s.busy with
    | false => simp [State.finishKey, hk, hb]
    | true =>
      by_cases hr : (s.cur.next s.cfg).r < s.cfg.rows
      · simp [State.finishKey, hk, hb, hr]; rfl
      · simp [State.finishKey, hk, hb, hr]; rfl

/-- A turn looks at no move still to come, and keeps them. -/
theorem State.microTurn_withInbox (s : State) (m : List Slot) (r c : Idx) :
    (s.withInbox m).microTurn r c = (s.microTurn r c).withInbox m := by
  cases hg : s.stage with
  | keyStart =>
    rw [State.microTurn_keyStart r c hg, State.microTurn_keyStart (s := s.withInbox m) r c hg, State.withInbox_cur,
      State.opSbrd_withInbox]
    rfl
  | update =>
    have hu : (s.withInbox m).updated r c = (s.updated r c).withInbox m := State.opDebupd_withInbox s m r c _
    rw [State.microTurn_update r c hg, State.microTurn_update (s := s.withInbox m) r c hg, hu,
      State.finishKey_withInbox, State.withInbox_latch]
    split <;> rfl
  | output =>
    rw [State.microTurn_output r c hg, State.microTurn_output (s := s.withInbox m) r c hg]
    rfl
  | publish =>
    rw [State.microTurn_publish r c hg, State.microTurn_publish (s := s.withInbox m) r c hg]
    rfl
  | forward =>
    rw [State.microTurn_forward r c hg, State.microTurn_forward (s := s.withInbox m) r c hg,
      ← State.finishKey_withInbox]
    rfl

theorem State.microTurn_inbox (s : State) (r c : Idx) : (s.microTurn r c).inbox = s.inbox := by
  have h : s.microTurn r c = (s.microTurn r c).withInbox s.inbox := s.microTurn_withInbox s.inbox r c
  rw [h, State.withInbox_inbox]

/-- A sequence of turns on one key is a run over as many moves of the engine. -/
theorem Turns.run {r c : Idx} {n : Nat} {s t : State} (h : Turns r c n s t) :
    runSteps n (s.withInbox (List.replicate n .engineMicro ++ s.inbox)) = .next t := by
  induction h with
  | none s => rfl
  | @turn n s t hw _ ih =>
    have hstep : step (s.withInbox (List.replicate (n + 1) .engineMicro ++ s.inbox)) =
        .next ((s.microTurn r c).withInbox (List.replicate n .engineMicro ++ s.inbox)) := by
      rw [List.replicate_succ, List.cons_append, step_engineMicro (State.withInbox_inbox _ _),
        ← State.microTurn_withInbox]
      exact turnMicro_eq (s := s.withInbox _) hw.1 hw.2
    rw [runSteps_next hstep, ← State.microTurn_inbox s r c]
    exact ih

/-- Settles O30: the whole KEYSTEP is two or five turns, and the turns are the run. -/
theorem microOperationsRefineKeystep : Obligations.MicroOperationsRefineKeystep := by
  intro s t rest ha hg hk hi hs
  obtain ⟨⟨r, c⟩, hk⟩ := Option.isSome_iff_exists.1 hk
  rw [step_engineKey hi, turnKey_eq (s := s.withInbox rest) ha hg hk] at hs
  cases hs
  rw [State.finishKey_latch]
  exact (Turns.keystep (s := s.withInbox rest) ⟨ha, hk⟩ hg).run

end Sys2Proof.Machine
end

section
/-! The invariant of the block (10_state.md R24, R28, R30; 41_keymatrix.md R111): what it says at each stage of a key
step, and that the engine's moves keep it. -/

namespace Sys2Proof.Machine

/-! ### What the invariant says -/

section
variable {s : State}

/-- A dispatch in progress, or a key step that STOP cut off, is one in Ready, of a key of the matrix. -/
theorem LifecycleOk.working (h : LifecycleOk s) (ha : s.active = true) :
    s.phase = .ready ∧ ∃ r c, Working r c s := by
  obtain ⟨hbusy, hcut, -⟩ := h
  cases hk : s.cutKey with
  | some k =>
    obtain ⟨hp, -, hm⟩ := hcut k.1 k.2 hk
    exact ⟨hp, k.1, k.2, ha, State.dueKey_of_cut hk hm⟩
  | none =>
    obtain ⟨hp, hcur⟩ := hbusy (by simpa [State.active_iff, hk] using ha)
    obtain ⟨⟨r, c⟩, hcur⟩ := Option.isSome_iff_exists.1 hcur
    exact ⟨hp, r, c, ha, (State.dueKey_of_cursor hk).trans hcur⟩

theorem LifecycleOk.idle (h : LifecycleOk s) (hp : s.phase ≠ .ready) : s.busy = false ∧ s.cutKey = none :=
  State.active_eq_false.1 <| Bool.eq_false_iff.2 fun ha => hp (h.working ha).1

/-- In Ready the configuration has passed its check. -/
theorem LifecycleOk.configValid (h : LifecycleOk s) (hp : s.phase = .ready) : configValid s.cfg = true := by
  obtain ⟨-, -, -, hv, -⟩ := h
  exact hv hp

theorem thresholds_of_configValid {P : Config} (h : configValid P = true) : 0 < P.transient ∧ P.transient < P.steady :=
  thresholdOrderOk_iff.1 (configValid_iff.1 h).1

theorem dims_of_configValid {P : Config} (h : configValid P = true) :
    (1 ≤ P.rows ∧ P.rows ≤ 16) ∧ (1 ≤ P.cols ∧ P.cols ≤ 16) :=
  dimRangeOk_iff.1 (configValid_iff.1 h).2.1

/-- In Ready the counter of every key is in range, so DEBUPD meets no violation (40_debouncer.md R90, R98). -/
theorem Inv.inRange (h : Inv s) (hp : s.phase = .ready) {r c : Idx} (hm : inMatrix s.cfg r c = true) :
    (s.key r c).inRange s.cfg.steady = true :=
  Reach.inRange (thresholds_of_configValid (h.lifecycle.configValid hp)).2 (h.reach hp r c hm)

end

/-- Every published bit of the matrix is the output of its Debouncer. -/
def AllPublished (s : State) : Prop := ∀ r c : Idx, inMatrix s.cfg r c = true → Published s r c

/-- The bit of key (r,c) is still to be stored, every other one is published. -/
def AllButPublished (r c : Idx) (s : State) : Prop :=
  s.ssBit r c = (!(s.key r c).fsm.out) ∧
    ∀ r' c' : Idx, inMatrix s.cfg r' c' = true → (r', c') ≠ (r, c) → Published s r' c'

/-- The latched output is that of key (r,c). -/
def LatchedAt (r c : Idx) (s : State) : Prop := s.latch.output = (s.key r c).fsm.out

/-- What the publication invariant and the latch amount to at each stage of a key step of key (r,c). -/
def StageOk (r c : Idx) (s : State) : Prop :=
  match s.stage with
  | .keyStart | .update => AllPublished s
  | .output => AllButPublished r c s
  | .publish => AllButPublished r c s ∧ LatchedAt r c s
  | .forward => AllPublished s ∧ LatchedAt r c s

section
variable {s : State}

/-- Where no store is still to come, the publication invariant is that every bit is published. -/
theorem publicationHolds_iff_all (h : ∀ r c, ¬ AwaitingStore s r c) : PublicationHolds s ↔ AllPublished s :=
  ⟨fun hp r c hm => (hp r c hm).1 (h r c), fun ha r c hm => ⟨fun _ => ha r c hm, fun haw => absurd haw (h r c)⟩⟩

theorem not_awaitingStore (ho : s.stage ≠ .output) (hp : s.stage ≠ .publish) (r c : Idx) : ¬ AwaitingStore s r c :=
  fun ⟨_, hg, _⟩ => hg.elim ho hp

variable {r c : Idx}

theorem Working.awaitingStore_iff (hw : Working r c s) (hg : s.stage = .output ∨ s.stage = .publish) {r' c' : Idx} :
    AwaitingStore s r' c' ↔ (r', c') = (r, c) := by
  obtain ⟨ha, hk⟩ := hw
  simp only [AwaitingStore, ha, hg, hk, true_and, Option.some.injEq]
  exact eq_comm

/-- Between DEBUPD and SSWR it is that every bit but one is. -/
theorem Working.publicationHolds_iff (hw : Working r c s) (hg : s.stage = .output ∨ s.stage = .publish) :
    PublicationHolds s ↔ AllButPublished r c s := by
  have hm := (State.dueKey_spec hw.2).1
  constructor
  · exact fun h => ⟨(h r c hm).2 ((hw.awaitingStore_iff hg).2 rfl),
      fun r' c' hm' hne => (h r' c' hm').1 fun haw => hne ((hw.awaitingStore_iff hg).1 haw)⟩
  · rintro ⟨hbit, helse⟩ r' c' hm'
    refine ⟨fun haw => helse r' c' hm' fun e => haw ((hw.awaitingStore_iff hg).2 e), fun haw => ?_⟩
    obtain ⟨rfl, rfl⟩ := Prod.mk.inj ((hw.awaitingStore_iff hg).1 haw)
    exact hbit

/-- Inside a key step, the publication invariant and the latch are what `StageOk` says at the stage. -/
theorem Working.stageOk_iff (hw : Working r c s) : StageOk r c s ↔ PublicationHolds s ∧ OutputLatched s := by
  have hlatched (hg : s.stage = .publish ∨ s.stage = .forward) : OutputLatched s ↔ LatchedAt r c s := by
    refine ⟨fun h => h r c hw.2 hg, fun h r' c' hk _ => ?_⟩
    obtain ⟨rfl, rfl⟩ := Prod.mk.inj (Option.some.inj (hw.2.symm.trans hk))
    exact h
  have hfree (hp : s.stage ≠ .publish) (hf : s.stage ≠ .forward) : OutputLatched s :=
    fun _ _ _ hg => absurd hg (not_or_intro hp hf)
  unfold StageOk
  cases hg : s.stage with
  | keyStart =>
    rw [publicationHolds_iff_all (not_awaitingStore (by simp [hg]) (by simp [hg]))]
    exact (and_iff_left (hfree (by simp [hg]) (by simp [hg]))).symm
  | update =>
    rw [publicationHolds_iff_all (not_awaitingStore (by simp [hg]) (by simp [hg]))]
    exact (and_iff_left (hfree (by simp [hg]) (by simp [hg]))).symm
  | output =>
    rw [hw.publicationHolds_iff (.inl hg)]
    exact (and_iff_left (hfree (by simp [hg]) (by simp [hg]))).symm
  | publish => rw [hw.publicationHolds_iff (.inr hg), hlatched (.inl hg)]
  | forward =>
    rw [publicationHolds_iff_all (not_awaitingStore (by simp [hg]) (by simp [hg])), hlatched (.inr hg)]

theorem Inv.stageOk (h : Inv s) (hw : Working r c s) : StageOk r c s :=
  hw.stageOk_iff.2 ⟨h.published (h.lifecycle.working hw.1).1, h.latched⟩

end

/-- Between two key steps in Ready every bit is published (41_keymatrix.md R111). -/
theorem Inv.allPublished {s : State} (h : Inv s) (hp : s.phase = .ready) (hg : s.stage = .keyStart) : AllPublished s :=
  (publicationHolds_iff_all (not_awaitingStore (by simp [hg]) (by simp [hg]))).1 (h.published hp)

/-! ### The lifecycle registers -/

theorem LifecycleOk.of_frame {fs : List FieldName} {s t : State} (h : LifecycleOk s) (hf : OnlyChanges fs s t)
    (hfs : ∀ f ∈ fs, f ∉ [FieldName.cfg, .busy, .cur, .phase, .fcode, .stage, .cutKey]) : LifecycleOk t := by
  have hsame (f : FieldName) (hm : f ∈ [FieldName.cfg, .busy, .cur, .phase, .fcode, .stage, .cutKey]) : f.same s t :=
    hf f fun hin => hfs f hin hm
  have hcfg : t.cfg = s.cfg := hsame .cfg (by decide)
  have hbusy : t.busy = s.busy := hsame .busy (by decide)
  have hcur : t.cur = s.cur := hsame .cur (by decide)
  have hphase : t.phase = s.phase := hsame .phase (by decide)
  have hfcode : t.fcode = s.fcode := hsame .fcode (by decide)
  have hstage : t.stage = s.stage := hsame .stage (by decide)
  have hcut : t.cutKey = s.cutKey := hsame .cutKey (by decide)
  unfold LifecycleOk at *
  rwa [State.active_congr hbusy hcut, State.cursorKey_congr hcur hcfg, hcfg, hbusy, hphase, hfcode, hstage, hcut]

theorem LifecycleOk.withStage {s : State} (h : LifecycleOk s) (ha : s.active = true) {g : Stage} (hg : g ≠ .keyStart) :
    LifecycleOk (s.withStage g) := by
  obtain ⟨hbusy, hcut, -, hrest⟩ := h
  refine ⟨hbusy, fun r c hk => ?_, fun hn => absurd (ha.symm.trans hn) (by decide), hrest⟩
  obtain ⟨hp, -, hm⟩ := hcut r c hk
  exact ⟨hp, hg, hm⟩

/-- The cursor after a key is on a key again while rows are left (10_state.md R30). -/
theorem State.cursorKey_next {s : State} (hv : configValid s.cfg = true) (hk : s.cursorKey.isSome = true)
    (hr : (s.cur.next s.cfg).r < s.cfg.rows) : (s.withCur (s.cur.next s.cfg)).cursorKey.isSome = true := by
  obtain ⟨⟨-, hrows⟩, -, hcols⟩ := dims_of_configValid hv
  obtain ⟨⟨r, c⟩, hk⟩ := Option.isSome_iff_exists.1 hk
  obtain ⟨hm, -, hc⟩ := State.cursorKey_spec hk
  have hc' : (s.cur.next s.cfg).c < s.cfg.cols := by
    unfold Cursor.next
    split
    · assumption
    · exact Nat.zero_lt_of_lt (inMatrix_iff.1 hm).2
  have hkey := State.cursorKey_of (s := s.withCur (s.cur.next s.cfg)) (r := ⟨(s.cur.next s.cfg).r, by omega⟩)
    (c := ⟨(s.cur.next s.cfg).c, by omega⟩) (inMatrix_iff.2 ⟨hr, hc'⟩) rfl rfl
  simp [hkey]

/-- The end of a key step leaves the engine between two key steps. -/
theorem State.finishKey_stage {s : State} (ha : s.active = true) :
    s.finishKey.stage = .keyStart ∧ s.finishKey.cutKey = none := by
  rcases s.finishKey_spec with ⟨hn, -⟩ | ⟨-, e⟩ | ⟨-, hk, -, e⟩ | ⟨-, -, -, e⟩
  · cases ha.symm.trans hn
  · rw [e]; exact ⟨rfl, rfl⟩
  · rw [e]; exact ⟨rfl, hk⟩
  · rw [e]; exact ⟨rfl, rfl⟩

theorem LifecycleOk.finishKey {s : State} (h : LifecycleOk s) (ha : s.active = true) : LifecycleOk s.finishKey := by
  have hp := (h.working ha).1
  obtain ⟨hstage, hcut⟩ := State.finishKey_stage ha
  have hcursor : s.finishKey.busy = true → s.finishKey.cursorKey.isSome = true := by
    rcases s.finishKey_spec with ⟨hn, -⟩ | ⟨-, e⟩ | ⟨hb, -, hr, e⟩ | ⟨-, -, -, e⟩
    · cases ha.symm.trans hn
    · rw [e]
      exact fun hb => (h.1 hb).2
    · rw [e]
      exact fun _ => State.cursorKey_next (h.configValid hp) (h.1 hb).2 hr
    · rw [e]
      exact nofun
  obtain ⟨-, -, -, hvalid, hfcode, hfailed⟩ := h
  refine ⟨fun hb => ⟨by rwa [State.finishKey_phase], hcursor hb⟩, fun r c hk => ?_, fun _ => hstage, ?_⟩
  · cases hcut.symm.trans hk
  · simp only [State.finishKey_phase, State.finishKey_cfg, State.finishKey_fcode]
    exact ⟨hvalid, hfcode, hfailed⟩

/-! ### Debouncers and published bits -/

theorem KeysReach.of_frame {fs : List FieldName} {s t : State} (h : KeysReach s) (hf : OnlyChanges fs s t)
    (hfs : ∀ f ∈ fs, f ∉ [FieldName.keys, .cfg]) : KeysReach t := by
  have hkeys : t.keys = s.keys := hf .keys fun hin => hfs _ hin (by decide)
  have hcfg : t.cfg = s.cfg := hf .cfg fun hin => hfs _ hin (by decide)
  intro r c hm
  rw [hcfg] at hm ⊢
  rw [State.key_congr hkeys]
  exact h r c hm

/-- A timestep of one key keeps every key reachable. -/
theorem KeysReach.opDebupd {s : State} {r c : Idx} (h : KeysReach s) (hv : configValid s.cfg = true) (x : Level)
    (hr : (s.key r c).inRange s.cfg.steady = true) : KeysReach (s.opDebupd r c x) := by
  intro r' c' hm
  rw [State.opDebupd_cfg] at hm ⊢
  obtain ⟨hT, hTS⟩ := thresholds_of_configValid hv
  by_cases hk : (r', c') = (r, c)
  · obtain ⟨rfl, rfl⟩ := Prod.mk.inj hk
    rw [State.opDebupd_key x hr]
    exact (h r' c' hm).update hT hTS x
  · rw [s.opDebupd_otherKeys r c x r' c' hk]
    exact h r' c' hm

/-- A bit and a Debouncer that stand as they were are published as they were. -/
theorem Published.congr {s t : State} {r c : Idx} (h : Published s r c) (hbit : t.ssBit r c = s.ssBit r c)
    (hkey : t.key r c = s.key r c) : Published t r c := by
  unfold Published at *
  rw [hbit, hkey, h]

section
variable {fs : List FieldName} {s t : State} (hf : OnlyChanges fs s t)
  (hfs : ∀ f ∈ fs, f ∉ [FieldName.keys, .ss, .cfg])
include hf hfs

theorem registers_of_frame : t.cfg = s.cfg ∧ (∀ r c, t.key r c = s.key r c) ∧ ∀ r c, t.ssBit r c = s.ssBit r c :=
  have hsame (f : FieldName) (hm : f ∈ [FieldName.keys, .ss, .cfg]) : f.same s t := hf f fun hin => hfs f hin hm
  ⟨hsame .cfg (by decide), State.key_congr (hsame .keys (by decide)), State.ssBit_congr (hsame .ss (by decide))⟩

theorem AllPublished.of_frame (h : AllPublished s) : AllPublished t := by
  obtain ⟨hcfg, hkey, hbit⟩ := registers_of_frame hf hfs
  exact fun r c hm => (h r c (hcfg ▸ hm)).congr (hbit r c) (hkey r c)

theorem AllButPublished.of_frame {r c : Idx} (h : AllButPublished r c s) : AllButPublished r c t := by
  obtain ⟨hcfg, hkey, hbit⟩ := registers_of_frame hf hfs
  obtain ⟨hpending, helse⟩ := h
  exact ⟨by rw [hbit, hkey, hpending],
    fun r' c' hm hne => (helse r' c' (hcfg ▸ hm) hne).congr (hbit r' c') (hkey r' c')⟩

end

/-- A DEBUPD that reports no change leaves every bit published. -/
theorem AllPublished.opDebupd_unchanged {s : State} {r c : Idx} {x : Level} (h : AllPublished s)
    (hr : (s.key r c).inRange s.cfg.steady = true) (hc : (s.opDebupd r c x).latch.changed = false) :
    AllPublished (s.opDebupd r c x) := by
  intro r' c' hm
  have hbit := State.ssBit_congr (State.opDebupd_ss s r c x) r' c'
  have hpub := h r' c' (by simpa using hm)
  by_cases hk : (r', c') = (r, c)
  · obtain ⟨rfl, rfl⟩ := Prod.mk.inj hk
    have hsame : (s.timestep r' c' x).1.fsm.out = (s.key r' c').fsm.out := by
      by_contra hne
      rw [State.opDebupd_latch x hr] at hc
      exact Bool.false_ne_true
        (hc.symm.trans ((Debouncer.changed_iff_out_ne s.cfg.steady s.cfg.transient (s.key r' c') x).2 hne))
    rw [Published, hbit, State.opDebupd_key x hr, hsame]
    exact hpub
  · exact hpub.congr hbit (s.opDebupd_otherKeys r c x r' c' hk)

/-- A DEBUPD that reports a change leaves the bit of its key to be stored. -/
theorem AllPublished.opDebupd_changed {s : State} {r c : Idx} {x : Level} (h : AllPublished s)
    (hm : inMatrix s.cfg r c = true) (hc : (s.opDebupd r c x).latch.changed = true) :
    AllButPublished r c (s.opDebupd r c x) := by
  have hr := State.inRange_of_changed hc
  have hbit := State.ssBit_congr (State.opDebupd_ss s r c x)
  refine ⟨?_, fun r' c' hm' hne => ?_⟩
  · have hflip : (s.timestep r c x).1.fsm.out ≠ (s.key r c).fsm.out := by
      rw [State.opDebupd_latch x hr] at hc
      exact (Debouncer.changed_iff_out_ne s.cfg.steady s.cfg.transient (s.key r c) x).1 hc
    rw [hbit, State.opDebupd_key x hr, h r c hm]
    exact Bool.eq_not.2 hflip.symm
  · exact (h r' c' (by simpa using hm')).congr (hbit r' c') (s.opDebupd_otherKeys r c x r' c' hne)

/-- Storing the new output publishes the bit that was still to be stored. -/
theorem AllButPublished.opSswr {s : State} {r c : Idx} (h : AllButPublished r c s) (hl : LatchedAt r c s) :
    AllPublished (s.opSswr r c s.latch.output) := by
  intro r' c' hm
  by_cases hk : (r', c') = (r, c)
  · obtain ⟨rfl, rfl⟩ := Prod.mk.inj hk
    rw [Published, State.ssBit_opSswr_same]
    exact hl
  · exact (h.2 r' c' hm hk).congr (s.opSswr_otherBits r c _ r' c' hk) rfl

/-! ### The turns of the engine keep the invariant -/

/-- Inside a key step the invariant is what `StageOk` says. -/
theorem Inv.of_working {s : State} {r c : Idx} (hw : Working r c s) (hmem : Memory.wf s.snap)
    (hq : s.eq.length ≤ s.cfg.queueCap) (hl : LifecycleOk s) (hr : KeysReach s) (hg : StageOk r c s) (hn : NoBench s) :
    Inv s :=
  have ⟨hp, hlatch⟩ := hw.stageOk_iff.1 hg
  ⟨hmem, hq, hl, fun _ => hr, fun _ => hp, hlatch, hn⟩

/-- Between two key steps it is that every bit is published. -/
theorem Inv.of_between {s : State} (hg : s.stage = .keyStart) (hmem : Memory.wf s.snap)
    (hq : s.eq.length ≤ s.cfg.queueCap) (hl : LifecycleOk s) (hr : KeysReach s) (hp : AllPublished s) (hn : NoBench s) :
    Inv s where
  memory := hmem
  queue := hq
  lifecycle := hl
  reach := fun _ => hr
  published := fun _ => (publicationHolds_iff_all (not_awaitingStore (by simp [hg]) (by simp [hg]))).2 hp
  latched := fun _ _ _ h => by simp [hg] at h
  noBench := hn

/-- A move of the queue keeps its bound. -/
theorem QueueMoved.bounded {s t : State} (h : QueueMoved s t) (hcfg : t.cfg = s.cfg)
    (hq : s.eq.length ≤ s.cfg.queueCap) :
    t.eq.length ≤ t.cfg.queueCap := by
  rw [hcfg]
  rcases h with e | ⟨e, he, hroom⟩ | ⟨e, he⟩
  · rwa [e]
  · simpa [he] using hroom
  · rw [he, List.length_cons] at hq
    omega

theorem State.microTurn_snap {s : State} {r c : Idx} (hk : s.dueKey = some (r, c)) :
    (s.microTurn r c).snap = s.snap := by
  have hne : (s.nextMicro r c).opcode ≠ .sbwr := fun h => by
    have := s.nextMicro_isPort r c
    rw [h] at this
    cases this
  obtain ⟨-, -, -, -, -, hsnap, -⟩ := writes_by_issuer (s.nextMicro r c).opcode
  exact Eq.trans (State.afterMicro_frame s.stage (s.microEffect r c) .snap (by decide))
    (exec_frame (exec_nextMicro hk) .snap (hsnap hne))

/-- What the invariant says of the snapshot memory, the queue and the inbox, whatever the stage. -/
def StorageOk (s : State) : Prop := Memory.wf s.snap ∧ s.eq.length ≤ s.cfg.queueCap ∧ NoBench s

theorem Inv.microTurn_storageOk {s : State} {r c : Idx} (h : Inv s) (hw : Working r c s) :
    StorageOk (s.microTurn r c) := by
  have hmoved : EngineMoved s (s.microTurn r c) := turnMicro_moved (turnMicro_eq hw.1 hw.2)
  refine ⟨State.microTurn_snap hw.2 ▸ h.memory, hmoved.queueMoved.bounded hmoved.cfg_eq h.queue, fun w hin => ?_⟩
  rw [State.microTurn_inbox] at hin
  exact h.noBench w hin

section
variable {s u : State} {r c : Idx} {fs : List FieldName} (h : Inv s) (hw : Working r c s) (hf : OnlyChanges fs s u)
  (hfs : ∀ f ∈ fs, f ∉ [FieldName.cfg, .busy, .cur, .phase, .fcode, .stage, .cutKey])
include h hw hf hfs

theorem Inv.work_kept : Working r c u ∧ LifecycleOk u ∧ u.phase = .ready :=
  ⟨hw.of_frame hf fun f hin hm => hfs f hin (by revert hm; cases f <;> decide), h.lifecycle.of_frame hf hfs,
    Eq.trans (hf .phase fun hin => hfs _ hin (by decide)) (h.lifecycle.working hw.1).1⟩

/-- A micro operation after which the key step goes on to stage g. -/
theorem Inv.to_stage {g : Stage} (hg : g ≠ .keyStart) (hst : StorageOk (u.withStage g)) (hr : KeysReach u)
    (hok : StageOk r c (u.withStage g)) : Inv (u.withStage g) ∧ (u.withStage g).phase = .ready := by
  obtain ⟨hwu, hl, hp⟩ := h.work_kept hw hf hfs
  obtain ⟨hmem, hq, hn⟩ := hst
  exact ⟨.of_working (hwu.withStage g) hmem hq (hl.withStage hwu.1 hg) hr hok hn, hp⟩

/-- A micro operation after which the key step is over. -/
theorem Inv.to_end (hst : StorageOk u.finishKey) (hr : KeysReach u) (hpub : AllPublished u) :
    Inv u.finishKey ∧ u.finishKey.phase = .ready := by
  obtain ⟨hwu, hl, hp⟩ := h.work_kept hw hf hfs
  obtain ⟨hmem, hq, hn⟩ := hst
  exact ⟨.of_between (State.finishKey_stage hwu.1).1 hmem hq (hl.finishKey hwu.1)
    (hr.of_frame u.finishKey_frame (by decide)) (hpub.of_frame u.finishKey_frame (by decide)) hn,
    u.finishKey_phase.trans hp⟩

end

/-- One turn of the engine keeps the invariant, and stays in Ready. -/
theorem Inv.microTurn {s : State} {r c : Idx} (h : Inv s) (hw : Working r c s) :
    Inv (s.microTurn r c) ∧ (s.microTurn r c).phase = .ready := by
  obtain ⟨hp, -⟩ := h.lifecycle.working hw.1
  have hm := (State.dueKey_spec hw.2).1
  have hreach := h.reach hp
  have hok := h.stageOk hw
  have hst := h.microTurn_storageOk hw
  unfold StageOk at hok
  cases hg : s.stage with
  | keyStart =>
    simp only [hg] at hok
    rw [State.microTurn_keyStart r c hg] at hst ⊢
    have hf := s.opSbrd_frame s.cur.h r
    have hpub := hok.of_frame hf (by decide)
    exact h.to_stage hw hf (by decide) nofun hst (hreach.of_frame hf (by decide)) hpub
  | update =>
    simp only [hg] at hok
    rw [State.microTurn_update r c hg] at hst ⊢
    have hr := h.inRange hp hm
    have hf : OnlyChanges [.keys, .latch] s (s.updated r c) := State.opDebupd_frame _ hr
    have hreach' : KeysReach (s.updated r c) := hreach.opDebupd (h.lifecycle.configValid hp) _ hr
    cases hc : (s.updated r c).latch.changed with
    | true =>
      rw [hc] at hst
      exact h.to_stage hw hf (by decide) nofun hst hreach' (hok.opDebupd_changed hm hc)
    | false =>
      rw [hc] at hst
      exact h.to_end hw hf (by decide) hst hreach' (hok.opDebupd_unchanged hr hc)
  | output =>
    simp only [hg] at hok
    rw [State.microTurn_output r c hg] at hst ⊢
    have hf : OnlyChanges [.latch] s (s.opDebout r c) := s.withLatch_frame _
    have hpending := hok.of_frame hf (by decide)
    exact h.to_stage hw hf (by decide) nofun hst (hreach.of_frame hf (by decide)) ⟨hpending, rfl⟩
  | publish =>
    simp only [hg] at hok
    obtain ⟨hpending, hlatch⟩ := hok
    rw [State.microTurn_publish r c hg] at hst ⊢
    have hf := s.opSswr_frame r c s.latch.output
    exact h.to_stage hw hf (by decide) nofun hst (hreach.of_frame hf (by decide)) ⟨hpending.opSswr hlatch, hlatch⟩
  | forward =>
    simp only [hg] at hok
    obtain ⟨hpub, -⟩ := hok
    rw [State.microTurn_forward r c hg] at hst ⊢
    have hf := (s.opErpush_frame r c s.latch.output).mono (gs := [.eq, .latch, .draws]) (by split <;> decide)
    exact h.to_end hw hf (by decide) hst (hreach.of_frame hf (by decide)) (hpub.of_frame hf (by decide))

/-- A sequence of turns keeps the invariant. -/
theorem Inv.turns {r c : Idx} {n : Nat} {s t : State} (ht : Turns r c n s t) :
    Inv s → s.phase = .ready → Inv t ∧ t.phase = .ready := by
  induction ht with
  | none s => exact fun h hp => ⟨h, hp⟩
  | turn hw _ ih => exact fun h _ => ih (h.microTurn hw).1 (h.microTurn hw).2

/-- A move of the engine keeps the invariant, and the phase. -/
theorem Inv.engineMoved {s t : State} (h : Inv s) (hm : EngineMoved s t) : Inv t ∧ t.phase = s.phase := by
  rcases hm.cases with ⟨rfl, -⟩ | ⟨-, ha, hk⟩ | ⟨r, c, ha, hg, hk, rfl⟩ | ⟨r, c, ha, hk, rfl⟩
  · exact ⟨h, rfl⟩
  · obtain ⟨-, r, c, -, hk'⟩ := h.lifecycle.working ha
    cases hk.symm.trans hk'
  · have hp := (h.lifecycle.working ha).1
    obtain ⟨hinv, hp'⟩ := h.turns (Turns.keystep ⟨ha, hk⟩ hg) hp
    exact ⟨hinv, hp'.trans hp.symm⟩
  · obtain ⟨hinv, hp'⟩ := h.microTurn ⟨ha, hk⟩
    exact ⟨hinv, hp'.trans (h.lifecycle.working ha).1.symm⟩

end Sys2Proof.Machine
end

section
/-! The invariant under power-on and the operations at the ports, and what follows from it: the theorems that settle
O47 to O50, O52, O53 and O56. -/

namespace Sys2Proof.Machine

/-! ### Power-on -/

/-- Power-on establishes the invariant, whatever moves are still to come but a bench's. -/
theorem inv_powerOn (P : Config) {m : List Slot} (n : Nat) (hm : ∀ w, Slot.bench w ∉ m) :
    Inv (((State.powerOn P).withInbox m).withDraws n) where
  memory := powerOn_memory_wf P
  queue := Nat.zero_le _
  lifecycle := ⟨nofun, nofun, fun _ => rfl, nofun, fun _ => rfl, nofun⟩
  reach := nofun
  published := nofun
  latched := fun _ _ _ h => by rcases h with h | h <;> cases h
  noBench := hm

/-- Settles O47. -/
theorem invariantAtReset : Obligations.InvariantAtReset :=
  ⟨inv_powerOn _ 0 (m := []) (by simp), fun P => inv_powerOn P 0 (m := []) (by simp)⟩

/-! ### Answers and moves taken -/

theorem Inv.withAnswer {s : State} (h : Inv s) (a : Option Answer) : Inv (s.withAnswer a) :=
  ⟨h.memory, h.queue, h.lifecycle, h.reach, h.published, h.latched, h.noBench⟩

/-- Taking the head of the inbox keeps the invariant. -/
theorem Inv.taken {s u : State} (h : Inv s) (hu : HeadTaken s u) : Inv u := by
  rcases hu with ⟨-, rfl⟩ | ⟨m, rest, hi, rfl⟩
  · exact h
  · exact ⟨h.memory, h.queue, h.lifecycle, h.reach, h.published, h.latched,
      fun w hin => h.noBench w (hi ▸ List.mem_cons_of_mem m hin)⟩

theorem Inv.not_bench {s : State} (h : Inv s) {w : CmdWord} {rest : List Slot} : s.inbox ≠ .bench w :: rest :=
  fun hi => h.noBench w (hi ▸ List.mem_cons_self)

/-! ### INIT -/

/-- A successful INIT puts every key in the reachable set and publishes every bit (44_lifecycle.md R142). -/
theorem allPublished_initReady (s : State) (pol : Level) : AllPublished (s.initReady pol) := by
  intro r c hm
  rw [State.initReady_cfg] at hm
  rw [Published, State.key_initReady pol hm, State.ssBit_initReady pol hm, Debouncer.initial_eq, Fsm.out_steadyOf]

theorem Inv.initReady {s : State} (h : Inv s) (pol : Level) (hv : configValid s.cfg = true) :
    Inv (s.initReady pol) := by
  refine .of_between (State.initReady_stage s pol) (by simpa using h.memory) ?_ ?_ (fun r c hm => ?_)
    (allPublished_initReady s pol) fun w => by simpa using h.noBench w
  · rw [State.initReady_cfg, State.initReady_eq]
    split
    · exact Nat.zero_le _
    · exact h.queue
  · simp [LifecycleOk, State.active, hv, Code.num]
  · rw [State.initReady_cfg] at hm
    rw [State.key_initReady pol hm, State.initReady_cfg]
    exact Debouncer.reach_initial (thresholds_of_configValid hv).1 pol

/-- A failed INIT leaves Uninit, where no dispatch runs, for Failed (60_exceptions.md R150). -/
theorem Inv.takeConfigFault {s : State} (h : Inv s) (hv : configValid s.cfg = false) :
    Inv (s.takeFault (configError s.cfg)) := by
  have hnr : s.phase ≠ .ready := fun hp => by simp [h.lifecycle.configValid hp] at hv
  obtain ⟨hb, hk⟩ := h.lifecycle.idle hnr
  obtain ⟨-, -, hidle, -⟩ := h.lifecycle
  have hg : s.stage = .keyStart := hidle (State.active_eq_false.2 ⟨hb, hk⟩)
  have hnum := configError_num s.cfg hv
  refine ⟨h.memory, h.queue, ?_, nofun, nofun, fun r c _ hs => ?_, h.noBench⟩
  · refine ⟨fun hb' => ?_, fun r c hk' => ?_, fun _ => hg, nofun, fun hne => absurd rfl hne, fun _ => ⟨hnum.1, ?_⟩⟩
    · cases hb.symm.trans hb'
    · cases hk.symm.trans hk'
    · exact hnum.2.trans (by decide)
  · simp [hg] at hs

/-! ### NOTIFY and STOP -/

/-- Key (r,c) stays the engine's work when the moves between s and t are those of a dispatch's start or end. -/
theorem Inv.of_same_work {s t : State} {r c : Idx} (h : Inv s) (hs : Working r c s) (ht : Working r c t)
    (hf : OnlyChanges [.busy, .cur, .cutKey] s t) (hl : LifecycleOk t) : Inv t := by
  have hcfg : t.cfg = s.cfg := hf .cfg (by decide)
  have hsnap : t.snap = s.snap := hf .snap (by decide)
  have heq : t.eq = s.eq := hf .eq (by decide)
  have hinbox : t.inbox = s.inbox := hf .inbox (by decide)
  have hstage : t.stage = s.stage := hf .stage (by decide)
  have hlatch : t.latch = s.latch := hf .latch (by decide)
  have hkey := State.key_congr (hf .keys (by decide))
  have hat : LatchedAt r c s → LatchedAt r c t := fun hl => by rw [LatchedAt, hlatch, hkey]; exact hl
  refine .of_working ht (hsnap ▸ h.memory) (by rw [heq, hcfg]; exact h.queue) hl
    ((h.reach (h.lifecycle.working hs.1).1).of_frame hf (by decide)) ?_ (fun w hin => h.noBench w (hinbox ▸ hin))
  have hok := h.stageOk hs
  unfold StageOk at hok ⊢
  rw [hstage]
  cases hg : s.stage <;> simp only [hg] at hok ⊢
  · exact hok.of_frame hf (by decide)
  · exact hok.of_frame hf (by decide)
  · exact hok.of_frame hf (by decide)
  · exact ⟨hok.1.of_frame hf (by decide), hat hok.2⟩
  · exact ⟨hok.1.of_frame hf (by decide), hat hok.2⟩

/-- Between two key steps the registers of the dispatch do not matter for the publication. -/
theorem Inv.of_same_between {s t : State} (h : Inv s) (hp : s.phase = .ready) (hg : s.stage = .keyStart)
    (hf : OnlyChanges [.busy, .cur, .cutKey] s t) (hl : LifecycleOk t) : Inv t := by
  have hcfg : t.cfg = s.cfg := hf .cfg (by decide)
  have hsnap : t.snap = s.snap := hf .snap (by decide)
  have heq : t.eq = s.eq := hf .eq (by decide)
  have hinbox : t.inbox = s.inbox := hf .inbox (by decide)
  exact .of_between (Eq.trans (hf .stage (by decide)) hg) (hsnap ▸ h.memory) (by rw [heq, hcfg]; exact h.queue) hl
    ((h.reach hp).of_frame hf (by decide)) ((h.allPublished hp hg).of_frame hf (by decide))
    (fun w hin => h.noBench w (hinbox ▸ hin))

/-- The first key of a dispatch exists. -/
theorem State.cursorKey_beginDispatch {s : State} (hv : configValid s.cfg = true) (h : Half) :
    (s.beginDispatch h).cursorKey = some (0, 0) := by
  obtain ⟨⟨hrows, -⟩, hcols, -⟩ := dims_of_configValid hv
  exact State.cursorKey_of (inMatrix_iff.2 ⟨hrows, hcols⟩) rfl rfl

/-- A dispatch is not in progress, so the engine is between two key steps or in one that STOP cut off. -/
theorem State.beginDispatch_keeps_stage {s : State} (hl : LifecycleOk s) (hb : s.busy = false) (h : Half) :
    (s.beginDispatch h).stage = s.stage := by
  rw [State.beginDispatch_stage]
  obtain ⟨-, -, hidle, -⟩ := hl
  cases hk : s.cutKey with
  | some k => rfl
  | none => exact (hidle (State.active_eq_false.2 ⟨hb, hk⟩)).symm

theorem Inv.beginDispatch {s : State} (h : Inv s) (k : Half) (hp : s.phase = .ready) (hb : s.busy = false) :
    Inv (s.beginDispatch k) := by
  have hv := h.lifecycle.configValid hp
  have hstage := State.beginDispatch_keeps_stage h.lifecycle hb k
  have hf : OnlyChanges [.busy, .cur, .cutKey] s (s.beginDispatch k) :=
    (s.beginDispatch_frame k).of_same fun f hf hn => by
      obtain rfl : f = .stage := by simp_all
      exact hstage
  obtain ⟨-, hcut, hidle, hrest⟩ := h.lifecycle
  have hl : LifecycleOk (s.beginDispatch k) :=
    ⟨fun _ => ⟨hp, by simp [State.cursorKey_beginDispatch hv k]⟩,
      fun r c hk => by rw [hstage]; exact hcut r c hk, nofun, hrest⟩
  cases hk : s.cutKey with
  | none => exact h.of_same_between hp (hidle (State.active_eq_false.2 ⟨hb, hk⟩)) hf hl
  | some key =>
    obtain ⟨-, -, hm⟩ := hcut key.1 key.2 hk
    exact h.of_same_work ⟨by simp [State.active, hk], State.dueKey_of_cut hk hm⟩
      ⟨rfl, State.dueKey_of_cut (s := s.beginDispatch k) hk hm⟩ hf hl

theorem Inv.abortDispatch {s : State} (h : Inv s) (hb : s.busy = true) : Inv s.abortDispatch := by
  have ha : s.active = true := State.active_iff.2 (.inl hb)
  have hf := s.abortDispatch_frame.mono (gs := [.busy, .cur, .cutKey]) (by decide)
  obtain ⟨hp, r, c, hw⟩ := h.lifecycle.working ha
  obtain ⟨-, -, -, hrest⟩ := h.lifecycle
  by_cases hg : s.stage = .keyStart
  · have hk : s.abortDispatch.cutKey = none := by simp [State.keyInProgress, hg]
    exact h.of_same_between hp hg hf ⟨nofun, fun r c hk' => (by cases hk.symm.trans hk'), fun _ => hg, hrest⟩
  · have hm := (State.dueKey_spec hw.2).1
    have hk : s.abortDispatch.cutKey = some (r, c) := by simp [State.keyInProgress, hg, hw.2]
    have ha' : s.abortDispatch.active = true := State.active_iff.2 (.inr (by rw [hk]; rfl))
    refine h.of_same_work hw ⟨ha', State.dueKey_of_cut hk hm⟩ hf
      ⟨nofun, fun r' c' hk' => ?_, fun hn => (by cases ha'.symm.trans hn), hrest⟩
    obtain ⟨rfl, rfl⟩ := Prod.mk.inj (Option.some.inj (hk.symm.trans hk'))
    exact ⟨hp, hg, hm⟩

/-! ### The operations at the ports, and every step -/

/-- An operation at a port keeps the invariant, and does not lead from Ready to Failed. -/
theorem Inv.exec_port {i : Instr} {s t : State} (h : Inv s) (hport : i.opcode.isPort = true) (he : exec i s = .next t) :
    Inv t ∧ (s.phase = .ready → t.phase = .ready) := by
  rcases exec_cases he with ⟨a, rfl⟩ | ⟨pol, rfl, -, -, ⟨hv, rfl⟩ | ⟨hv, rfl⟩⟩ | ⟨k, r, w, rfl, -, -, rfl⟩ |
    ⟨k, rfl, hp, hb, rfl⟩ | ⟨e, rest, rfl, hq, rfl⟩ | ⟨rfl, -, hb, rfl⟩ | ⟨r, c, x, rfl, -⟩ | ⟨r, c, rfl, -⟩ |
    ⟨r, c, b, rfl, -⟩ | ⟨r, c, o, rfl, -⟩ | ⟨k, r, rfl, -⟩ | ⟨k, r, c, rfl, -⟩
  · exact ⟨h.withAnswer a, id⟩
  · exact ⟨(h.initReady pol hv).withAnswer _, fun _ => State.initReady_phase s pol⟩
  · exact ⟨(h.takeConfigFault hv).withAnswer _, fun hp => by simp [h.lifecycle.configValid hp] at hv⟩
  · exact ⟨⟨State.setSnap_memory_wf k r w h.memory, h.queue, h.lifecycle, h.reach, h.published, h.latched,
      h.noBench⟩, id⟩
  · exact ⟨(h.beginDispatch k hp hb).withAnswer _, id⟩
  · have hlen : rest.length ≤ s.cfg.queueCap := by
      have := h.queue
      rw [hq, List.length_cons] at this
      omega
    exact ⟨⟨h.memory, hlen, h.lifecycle, h.reach, h.published, h.latched, h.noBench⟩, id⟩
  · exact ⟨(h.abortDispatch hb).withAnswer _, id⟩
  all_goals cases hport

/-- Settles O48: the operations at the ports, the engine's moves and power-on each keep the invariant; no bench move
is to come. -/
theorem stepKeepsInvariant : Obligations.StepKeepsInvariant := by
  intro s t h hs
  obtain ⟨u, hu, hmove⟩ := step_moves hs
  have hinv := h.taken hu
  rcases hmove with ⟨w, rest, i, -, -, hport, e⟩ | ⟨w, rest, i, hi, -⟩ | rfl | he | ⟨rest, -, rfl⟩
  · exact (hinv.exec_port hport e).1
  · exact absurd hi h.not_bench
  · exact hinv.withAnswer _
  · exact (hinv.engineMoved he).1
  · exact inv_powerOn u.cfg u.draws hinv.noBench

/-- Settles O53: power-on leads to Uninit, and every other move of the block stays in Ready. -/
theorem invariantViolationUnreachable : Obligations.InvariantViolationUnreachable := by
  intro s t h hp hs
  obtain ⟨u, hu, hmove⟩ := step_moves hs
  have hinv := h.taken hu
  have hpu : u.phase = .ready := Eq.trans (HeadTaken.frame hu .phase (by decide)) hp
  rcases hmove with ⟨w, rest, i, -, -, hport, e⟩ | ⟨w, rest, i, hi, -⟩ | rfl | he | ⟨rest, -, rfl⟩
  · simp [(hinv.exec_port hport e).2 hpu]
  · exact absurd hi h.not_bench
  · simp [hpu]
  · simp [(hinv.engineMoved he).2.trans hpu]
  · exact nofun

/-! ### Failed -/

/-- In Failed only SBWR and STOP are served, and no dispatch is there to stop (60_exceptions.md R155). -/
theorem exec_port_of_failed {i : Instr} {s t : State} (hp : s.phase = .failed) (hb : s.busy = false)
    (hport : i.opcode.isPort = true) (h : exec i s = .next t) : OnlyChanges [.snap, .answer] s t := by
  by_cases hserved : Served s i
  · cases i with
    | sbwr k r w => exact exec_frame h
    | stop =>
      rw [exec_stop_keeps (.inr hb)] at h
      cases h
      exact (s.withAnswer_frame _).mono (by decide)
    | init pol => exact absurd hp hserved.1
    | notify k => exact absurd (hp.symm.trans hserved) nofun
    | ssrd r c => exact absurd (hp.symm.trans hserved) nofun
    | ssrdrow r => exact absurd (hp.symm.trans hserved) nofun
    | erpop => exact absurd (hp.symm.trans hserved) nofun
    | _ => cases hport
  · rw [exec_of_not_served hserved] at h
    cases h
    exact (s.withAnswer_frame _).mono (by decide)

/-- Settles O52: the engine is idle in Failed, and the ports leave everything but snapshot words. -/
theorem failedUntilPowerOn : Obligations.FailedUntilPowerOn := by
  intro s t h hp hno hs
  obtain ⟨u, hu, hmove⟩ := step_moves hs
  obtain ⟨hb, hk⟩ := h.lifecycle.idle (by simp [hp])
  have hfu := HeadTaken.frame hu
  have hbu : u.busy = false := Eq.trans (hfu .busy (by decide)) hb
  have hf : OnlyChanges [.snap, .answer] u t := by
    rcases hmove with ⟨w, rest, i, -, -, hport, e⟩ | ⟨w, rest, i, hi, -⟩ | rfl | he | ⟨rest, hi, -⟩
    · exact exec_port_of_failed (Eq.trans (hfu .phase (by decide)) hp) hbu hport e
    · exact absurd hi h.not_bench
    · exact (u.withAnswer_frame _).mono (by decide)
    · have hidle : u.active = false :=
        State.active_eq_false.2 ⟨hbu, Eq.trans (hfu .cutKey (by decide)) hk⟩
      rcases he.cases with ⟨rfl, -⟩ | ⟨-, ha, -⟩ | ⟨r, c, ha, -⟩ | ⟨r, c, ha, -⟩
      · exact OnlyChanges.refl _ _
      all_goals cases hidle.symm.trans ha
    · exact absurd hi (hno rest)
  have hst := hfu.trans hf (ks := [.inbox, .snap, .answer]) (by decide)
  exact ⟨Eq.trans (hst .phase (by decide)) hp, hst .fcode (by decide), hst .keys (by decide), hst .ss (by decide),
    hst .eq (by decide), Eq.trans (hst .busy (by decide)) hb⟩

/-! ### Publication -/

/-- Settles O56. -/
theorem quiescentBlockIsIdle : Obligations.QuiescentBlockIsIdle := by
  rintro s h ⟨hp, hb, hk, hi⟩
  have hidle := State.active_eq_false.2 ⟨hb, hk⟩
  obtain ⟨-, -, hstage, -⟩ := h.lifecycle
  exact ⟨by rw [step_nil hi, turnKey_idle hidle], h.allPublished hp (hstage hidle)⟩

/-- The SSWR of a key step flips its bit. -/
theorem Inv.publish_flips {s : State} {r c : Idx} (h : Inv s) (hw : Working r c s) (hg : s.stage = .publish) :
    (s.microTurn r c).ssBit r c = !s.ssBit r c := by
  have hok := h.stageOk hw
  simp only [StageOk, hg] at hok
  obtain ⟨⟨hbit, -⟩, hlatch⟩ := hok
  rw [State.microTurn_publish r c hg, hbit, Bool.not_not, ← hlatch]
  exact State.ssBit_opSswr_same s r c _

/-- So does a whole KEYSTEP that reports a change. -/
theorem Inv.keystep_flips {s : State} {r c : Idx} (h : Inv s) (hw : Working r c s) (hg : s.stage = .keyStart)
    (hc : (s.opKeystep s.cur.h r c).latch.changed = true) :
    (s.opKeystep s.cur.h r c).ssBit r c = !s.ssBit r c := by
  have hp := (h.lifecycle.working hw.1).1
  have hm := (State.dueKey_spec hw.2).1
  have hpub : s.ssBit r c = (s.key r c).fsm.out := h.allPublished hp hg r c hm
  obtain ⟨-, -, hchanged, -, -, hon⟩ := State.opKeystep_inRange s.cur.h (h.inRange hp hm)
  have hu := hchanged.symm.trans hc
  have hflip := (Debouncer.changed_iff_out_ne s.cfg.steady s.cfg.transient (s.key r c) (s.stepSample s.cur.h r c)).1 hu
  rw [(hon hu).1, hpub]
  exact Bool.eq_not.2 hflip

theorem State.ssBit_finishKey (s : State) (r c : Idx) : s.finishKey.ssBit r c = s.ssBit r c :=
  State.ssBit_congr s.finishKey_ss r c

/-- Inside a key step each of the engine's moves is the next micro operation, also with an empty inbox. -/
theorem step_engine {s : State} {rest : List Slot}
    (hi : s.inbox = [] ∨ s.inbox = .engineMicro :: rest ∨ s.inbox = .engineKey :: rest) (hg : s.stage ≠ .keyStart) :
    ∃ u, HeadTaken s u ∧ step s = turnMicro u := by
  rcases hi with hi | hi | hi
  · exact ⟨s, .inl ⟨hi, rfl⟩, (step_nil hi).trans (turnKey_inside hg)⟩
  · exact ⟨_, .inr ⟨_, rest, hi, rfl⟩, step_engineMicro hi⟩
  · exact ⟨_, .inr ⟨_, rest, hi, rfl⟩, (step_engineKey hi).trans (turnKey_inside (s := s.withInbox rest) hg)⟩

theorem step_engine_keystep {s : State} {rest : List Slot} (hi : s.inbox = [] ∨ s.inbox = .engineKey :: rest) :
    ∃ u, HeadTaken s u ∧ step s = turnKey u := by
  rcases hi with hi | hi
  · exact ⟨s, .inl ⟨hi, rfl⟩, step_nil hi⟩
  · exact ⟨_, .inr ⟨_, rest, hi, rfl⟩, step_engineKey hi⟩

/-- Settles O49: the invariant between key steps, INIT, and the two moves that store a bit. -/
theorem publicationInvariant : Obligations.PublicationInvariant := by
  refine ⟨fun s h hp hg => h.allPublished hp hg, fun s t pol hp hb hv he => ?_,
    fun s t h hs hp hg => (stepKeepsInvariant s t h hs).allPublished hp hg,
    fun s t rest r c h ha hg hk hi hs => ?_, fun s t rest r c h ha hg hk hi hs hc => ?_⟩
  · rw [exec_init_of_valid pol hp hb hv] at he
    cases he
    have hpub : AllPublished ((s.initReady pol).doneWith 0#16) :=
      (allPublished_initReady s pol).of_frame (State.withAnswer_frame _ _) (by decide)
    exact fun r c hm => hpub r c (by simpa using hm)
  · obtain ⟨u, hu, e⟩ := step_engine hi (by simp [hg])
    have hw := hu.working ⟨ha, hk⟩
    rw [e, turnMicro_eq hw.1 hw.2] at hs
    cases hs
    rw [← State.ssBit_congr (hu.frame .ss (by decide))]
    exact (h.taken hu).publish_flips hw (Eq.trans (hu.frame .stage (by decide)) hg)
  · obtain ⟨u, hu, e⟩ := step_engine_keystep hi
    have hw := hu.working ⟨ha, hk⟩
    have hgu : u.stage = .keyStart := Eq.trans (hu.frame .stage (by decide)) hg
    rw [e, turnKey_eq hw.1 hgu hw.2] at hs
    cases hs
    rw [State.finishKey_latch] at hc
    rw [State.ssBit_finishKey, ← State.ssBit_congr (hu.frame .ss (by decide))]
    exact (h.taken hu).keystep_flips hw hgu hc

/-! ### An event and its bit -/

/-- No operation at a port puts a record in the queue. -/
theorem exec_port_queue {i : Instr} {s t : State} (hport : i.opcode.isPort = true) (h : exec i s = .next t) :
    t.eq.length ≤ s.eq.length := by
  rcases exec_cases h with ⟨a, rfl⟩ | ⟨pol, rfl, -, -, ⟨-, rfl⟩ | ⟨-, rfl⟩⟩ | ⟨k, r, w, rfl, -, -, rfl⟩ |
    ⟨k, rfl, -, -, rfl⟩ | ⟨e, rest, rfl, hq, rfl⟩ | ⟨rfl, -, -, rfl⟩ | ⟨r, c, x, rfl, -⟩ | ⟨r, c, rfl, -⟩ |
    ⟨r, c, b, rfl, -⟩ | ⟨r, c, o, rfl, -⟩ | ⟨k, r, rfl, -⟩ | ⟨k, r, c, rfl, -⟩
  · exact Nat.le_refl _
  · rw [State.doneWith_eq, State.initReady_eq]
    split
    · exact Nat.zero_le _
    · exact Nat.le_refl _
  · exact Nat.le_refl _
  · exact Nat.le_refl _
  · exact Nat.le_refl _
  · rw [hq]
    exact Nat.le_succ _
  · exact Nat.le_refl _
  all_goals cases hport

/-- The ERPUSH of a key step comes after its SSWR (20_memory.md R55). -/
theorem Inv.microTurn_event {s : State} {r c : Idx} {e : Event} (h : Inv s) (hw : Working r c s)
    (he : (s.microTurn r c).eq = s.eq ++ [e]) : (s.microTurn r c).ssBit e.row e.col = e.output := by
  have hm := (State.dueKey_spec hw.2).1
  by_cases hg : s.stage = .forward
  · have hok := h.stageOk hw
    simp only [StageOk, hg] at hok
    obtain ⟨hpub, hlatch⟩ := hok
    rw [State.microTurn_forward r c hg, State.finishKey_eq] at he
    rw [State.microTurn_forward r c hg, State.ssBit_finishKey]
    obtain ⟨htaken, hdropped, -⟩ := s.opErpush_queue r c s.latch.output
    cases ht : (s.opErpush r c s.latch.output).latch.taken with
    | true =>
      rw [(htaken ht).1] at he
      obtain rfl : _ = e := by simpa using he
      exact (hpub r c hm).trans hlatch.symm
    | false => simp [hdropped ht] at he
  · have hkept : (s.microEffect r c).eq = s.eq := by
      unfold State.microEffect
      cases hs : s.stage with
      | keyStart => simp
      | update => simp
      | output => rfl
      | publish => rfl
      | forward => exact absurd hs hg
    have := State.afterMicro_frame s.stage (s.microEffect r c) .eq (by decide)
    rw [State.microTurn, show (State.afterMicro _ _).eq = _ from this, hkept] at he
    simp at he

/-- A whole KEYSTEP forwards what it has published. -/
theorem Inv.keystep_event {s : State} {r c : Idx} {e : Event} (h : Inv s) (hw : Working r c s)
    (he : (s.opKeystep s.cur.h r c).eq = s.eq ++ [e]) : (s.opKeystep s.cur.h r c).ssBit e.row e.col = e.output := by
  have hp := (h.lifecycle.working hw.1).1
  have hm := (State.dueKey_spec hw.2).1
  obtain ⟨-, -, -, -, hoff, hon⟩ := State.opKeystep_inRange s.cur.h (h.inRange hp hm)
  cases hu : (s.timestep r c (s.stepSample s.cur.h r c)).2 with
  | false => simp [(hoff hu).2] at he
  | true =>
    obtain ⟨hbit, -, -, -, hq | hq⟩ := hon hu
    · simp [hq] at he
    · rw [hq] at he
      obtain rfl : _ = e := by simpa using he
      exact hbit

/-- Settles O50: only the engine appends an event, by an ERPUSH after its SSWR or by a whole KEYSTEP. -/
theorem storeBeforeEvent : Obligations.StoreBeforeEvent := by
  intro s t e h hs he
  obtain ⟨u, hu, hmove⟩ := step_moves hs
  have hinv := h.taken hu
  have hq : u.eq = s.eq := HeadTaken.frame hu .eq (by decide)
  rw [← hq] at he
  rcases hmove with ⟨w, rest, i, -, -, hport, hexec⟩ | ⟨w, rest, i, hi, -⟩ | rfl | hm | ⟨rest, -, rfl⟩
  · have := exec_port_queue hport hexec
    simp [he] at this
  · exact absurd hi h.not_bench
  · simp at he
  · rcases hm.cases with ⟨rfl, -⟩ | ⟨rfl, -⟩ | ⟨r, c, ha, -, hk, rfl⟩ | ⟨r, c, ha, hk, rfl⟩
    · simp at he
    · simp at he
    · rw [State.finishKey_eq] at he
      rw [State.ssBit_finishKey]
      exact hinv.keystep_event ⟨ha, hk⟩ he
    · exact hinv.microTurn_event ⟨ha, hk⟩ he
  · have hnil : ([] : List Event) = u.eq ++ [e] := he
    simp at hnil

end Sys2Proof.Machine
end

section
/-! A dispatch cut short by STOP (44_lifecycle.md R144, log entry 9): the key step in progress ends within four moves of
the engine; the theorem that settles O60. -/

namespace Sys2Proof.Machine

/-- Nothing the world sees has changed from s to t but key (r,c), its published bit and the queue. -/
def OnlyKey (r c : Idx) (s t : State) : Prop :=
  OtherKeysSame r c s t ∧ OtherBitsSame r c s t ∧ t.cur = s.cur ∧ t.snap = s.snap ∧ t.cfg = s.cfg

theorem OnlyKey.trans {r c : Idx} {s t u : State} (h : OnlyKey r c s t) (h' : OnlyKey r c t u) : OnlyKey r c s u := by
  obtain ⟨hkeys, hbits, hcur, hsnap, hcfg⟩ := h
  obtain ⟨hkeys', hbits', hcur', hsnap', hcfg'⟩ := h'
  exact ⟨fun r' c' hne => (hkeys' r' c' hne).trans (hkeys r' c' hne),
    fun r' c' hne => (hbits' r' c' hne).trans (hbits r' c' hne), hcur'.trans hcur, hsnap'.trans hsnap, hcfg'.trans hcfg⟩

theorem OnlyKey.of_frame {r c : Idx} {fs : List FieldName} {s t : State} (hf : OnlyChanges fs s t)
    (hfs : ∀ f ∈ fs, f ∉ [FieldName.keys, .ss, .cur, .snap, .cfg]) : OnlyKey r c s t :=
  have hsame (f : FieldName) (hm : f ∈ [FieldName.keys, .ss, .cur, .snap, .cfg]) : f.same s t :=
    hf f fun hin => hfs f hin hm
  ⟨fun r' c' _ => State.key_congr (hsame .keys (by decide)) r' c',
    fun r' c' _ => State.ssBit_congr (hsame .ss (by decide)) r' c', hsame .cur (by decide), hsame .snap (by decide),
    hsame .cfg (by decide)⟩

theorem State.opDebupd_onlyKey (s : State) (r c : Idx) (x : Level) : OnlyKey r c s (s.opDebupd r c x) :=
  ⟨s.opDebupd_otherKeys r c x, fun r' c' _ => State.ssBit_congr (State.opDebupd_ss s r c x) r' c',
    State.opDebupd_cur s r c x, State.opDebupd_snap s r c x, State.opDebupd_cfg s r c x⟩

theorem State.opSswr_onlyKey (s : State) (r c : Idx) (b : Level) : OnlyKey r c s (s.opSswr r c b) :=
  ⟨fun _ _ _ => rfl, s.opSswr_otherBits r c b, rfl, rfl, rfl⟩

/-- The end of a key step that STOP cut off. -/
theorem State.finishKey_of_cut {s : State} (h : s.cutKey.isSome = true) :
    s.finishKey = (s.withStage .keyStart).withCutKey none := by
  simp [State.finishKey, h]

theorem State.finishKey_onlyKey_of_cut {s : State} (r c : Idx) (h : s.cutKey.isSome = true) :
    OnlyKey r c s s.finishKey := by
  rw [State.finishKey_of_cut h]
  exact ⟨fun _ _ _ => rfl, fun _ _ _ => rfl, rfl, rfl, rfl⟩

/-- The turns of the engine still to come in a key step, at most. -/
def Stage.turnsLeft : Stage → Nat
  | .keyStart => 0
  | .update => 4
  | .output => 3
  | .publish => 2
  | .forward => 1

theorem Stage.turnsLeft_eq_zero {g : Stage} : g.turnsLeft = 0 ↔ g = .keyStart := by cases g <;> decide

theorem Stage.turnsLeft_le (g : Stage) : g.turnsLeft ≤ 4 := by cases g <;> decide

/-- Outside a dispatch the engine has a key step of key (r,c) to end, and no other move is to come. -/
def CutAt (r c : Idx) (s : State) : Prop := s.busy = false ∧ s.cutKey = some (r, c) ∧ s.inbox = []

/-- The engine has nothing to do, and no move is to come. -/
def AtRest (s : State) : Prop := s.busy = false ∧ s.cutKey = none ∧ s.inbox = []

section
variable {r c : Idx} {s : State}

theorem CutAt.working (h : CutAt r c s) (hinv : Inv s) : Working r c s ∧ s.stage ≠ .keyStart := by
  obtain ⟨-, hk, -⟩ := h
  obtain ⟨-, hcut, -⟩ := hinv.lifecycle
  obtain ⟨-, hg, hm⟩ := hcut r c hk
  exact ⟨⟨State.active_iff.2 (.inr (by rw [hk]; rfl)), State.dueKey_of_cut hk hm⟩, hg⟩

theorem CutAt.of_frame {fs : List FieldName} {t : State} (h : CutAt r c s) (hf : OnlyChanges fs s t)
    (hfs : ∀ f ∈ fs, f ∉ [FieldName.busy, .cutKey, .inbox]) : CutAt r c t := by
  have hsame (f : FieldName) (hm : f ∈ [FieldName.busy, .cutKey, .inbox]) : f.same s t := hf f fun hin => hfs f hin hm
  obtain ⟨hb, hk, hi⟩ := h
  exact ⟨Eq.trans (hsame .busy (by decide)) hb, Eq.trans (hsame .cutKey (by decide)) hk,
    Eq.trans (hsame .inbox (by decide)) hi⟩

theorem CutAt.finishKey (h : CutAt r c s) : AtRest s.finishKey ∧ OnlyKey r c s s.finishKey := by
  obtain ⟨hb, hk, hi⟩ := h
  have hcut : s.cutKey.isSome = true := by rw [hk]; rfl
  refine ⟨?_, State.finishKey_onlyKey_of_cut r c hcut⟩
  rw [State.finishKey_of_cut hcut]
  exact ⟨hb, rfl, hi⟩

/-- One turn brings a key step that STOP cut off nearer to its end, or ends it. -/
theorem CutAt.microTurn (h : CutAt r c s) (hinv : Inv s) :
    OnlyKey r c s (s.microTurn r c) ∧
      ((CutAt r c (s.microTurn r c) ∧ (s.microTurn r c).stage.turnsLeft + 1 = s.stage.turnsLeft) ∨
        AtRest (s.microTurn r c)) := by
  obtain ⟨hw, hne⟩ := h.working hinv
  cases hg : s.stage with
  | keyStart => exact absurd hg hne
  | update =>
    have hp := (hinv.lifecycle.working hw.1).1
    have hf : OnlyChanges [.keys, .latch] s (s.updated r c) :=
      State.opDebupd_frame _ (hinv.inRange hp (State.dueKey_spec hw.2).1)
    have hkey : OnlyKey r c s (s.updated r c) := s.opDebupd_onlyKey r c _
    have hcut := h.of_frame hf (by decide)
    rw [State.microTurn_update r c hg]
    split
    · exact ⟨hkey, .inl ⟨hcut, rfl⟩⟩
    · obtain ⟨hrest, hkey'⟩ := hcut.finishKey
      exact ⟨hkey.trans hkey', .inr hrest⟩
  | output =>
    have hkey : OnlyKey r c s (s.opDebout r c) := .of_frame (s.withLatch_frame _) (by decide)
    rw [State.microTurn_output r c hg]
    exact ⟨hkey, .inl ⟨h, rfl⟩⟩
  | publish =>
    rw [State.microTurn_publish r c hg]
    exact ⟨s.opSswr_onlyKey r c _, .inl ⟨h, rfl⟩⟩
  | forward =>
    have hf := (s.opErpush_frame r c s.latch.output).mono (gs := [.eq, .latch, .draws]) (by split <;> decide)
    obtain ⟨hrest, hkey⟩ := (h.of_frame hf (by decide)).finishKey
    rw [State.microTurn_forward r c hg]
    exact ⟨(OnlyKey.of_frame hf (by decide)).trans hkey, .inr hrest⟩

theorem CutAt.step (h : CutAt r c s) (hinv : Inv s) : step s = .next (s.microTurn r c) := by
  obtain ⟨hw, hne⟩ := h.working hinv
  obtain ⟨-, -, hi⟩ := h
  rw [step_nil hi, turnKey_inside hne, turnMicro_eq hw.1 hw.2]

end

/-- A key step that STOP cut off ends within the turns its stage leaves. -/
theorem CutAt.ends {r c : Idx} (n : Nat) :
    ∀ {s : State}, CutAt r c s → Inv s → s.stage.turnsLeft = n →
      ∃ m u, m ≤ n ∧ runSteps m s = .next u ∧ AtRest u ∧ Inv u ∧ u.phase = .ready ∧ OnlyKey r c s u := by
  induction n with
  | zero =>
    intro s h hinv hn
    have hne := (h.working hinv).2
    exact absurd (Stage.turnsLeft_eq_zero.1 hn) hne
  | succ n ih =>
    intro s h hinv hn
    have hw := (h.working hinv).1
    obtain ⟨hinv', hp⟩ := hinv.microTurn hw
    have hstep := h.step hinv
    obtain ⟨hkey, ⟨hcut, hleft⟩ | hrest⟩ := h.microTurn hinv
    · obtain ⟨m, u, hm, hrun, hrest, hinvu, hpu, hkey'⟩ := ih hcut hinv' (by omega)
      exact ⟨m + 1, u, Nat.succ_le_succ hm, (runSteps_next hstep).trans hrun, hrest, hinvu, hpu, hkey.trans hkey'⟩
    · exact ⟨1, _, Nat.succ_le_succ (Nat.zero_le n), runSteps_next hstep, hrest, hinv', hp, hkey⟩

/-- Settles O60: after the STOP the engine has that key step alone to end. -/
theorem stopEndsWithTheKeyStep : Obligations.StopEndsWithTheKeyStep := by
  intro s t r c h habort hb hg hk hi hstop
  have hinv := (h.exec_port rfl hstop).1
  rw [exec_stop_aborts habort hb] at hstop
  cases hstop
  have hcut : CutAt r c s.abortDispatch.done := ⟨rfl, by simpa [State.keyInProgress, hg] using hk, hi⟩
  obtain ⟨n, u, hn, hrun, ⟨hbu, hku, hiu⟩, hinvu, hpu, hkeys, hbits, hcur, hsnap, hcfg⟩ := hcut.ends _ hinv rfl
  have hidle := State.active_eq_false.2 ⟨hbu, hku⟩
  obtain ⟨-, -, hstage, -⟩ := hinvu.lifecycle
  refine ⟨rfl, n, u, hn.trans (Stage.turnsLeft_le _), hrun, by rw [step_nil hiu, turnKey_idle hidle], hbu, hstage hidle,
    hku, hpu, hcur, hsnap, hkeys, hbits, fun r' c' hm => hinvu.allPublished hpu (hstage hidle) r' c' ?_⟩
  rw [hcfg]
  exact hm

end Sys2Proof.Machine
end

section
/-! The atomic view of a dispatch (41_keymatrix.md R106, R107, R110; 43_eventrelay.md R131): the traversal order by
the number of a key, the queue under a list of offers, what a dispatch has done after its first j key steps; the
theorem that settles O31. -/

namespace Sys2Proof.Machine

/-! ### The traversal order -/

/-- Key number j of the traversal: rows ascending, columns ascending within a row (41_keymatrix.md R107). -/
def dispatchKey (P : Config) (j : Nat) : Idx × Idx := (Fin.ofNat 16 (j / P.cols), Fin.ofNat 16 (j % P.cols))

theorem flatMap_guard {α β : Type} (p : α → Bool) (f : α → List β) (l : List α) :
    (l.flatMap fun a => if p a then f a else []) = (l.filter p).flatMap f := by
  induction l with
  | nil => rfl
  | cons a l ih => cases hp : p a <;> simp [hp, ih]

/-- Rows of n columns each, one after another, are numbered by quotient and remainder. -/
theorem flatMap_range_map {β : Type} {n : Nat} (f : Nat → Nat → β) (m : Nat) :
    ((List.range m).flatMap fun r => (List.range n).map (f r)) =
      (List.range (m * n)).map fun j => f (j / n) (j % n) := by
  induction m with
  | zero => simp
  | succ m ih =>
    rw [List.range_succ, List.flatMap_append, ih, Nat.succ_mul, List.range_add, List.map_append, List.map_map,
      List.flatMap_singleton]
    congr 1
    refine List.map_congr_left fun c hc => ?_
    have hc := List.mem_range.1 hc
    rw [Function.comp_apply, Nat.mul_comm m n, Nat.mul_add_div (by omega), Nat.div_eq_of_lt hc, Nat.mul_add_mod,
      Nat.mod_eq_of_lt hc, Nat.add_zero]

theorem keyOrder_eq {P : Config} (hr : P.rows ≤ 16) (hc : P.cols ≤ 16) :
    keyOrder P = (List.range (P.rows * P.cols)).map (dispatchKey P) := by
  have hrow (r : Idx) : (((List.finRange 16).filter fun c => inMatrix P r c).map fun c => (r, c)) =
      if decide (r.val < P.rows) then (List.range P.cols).map fun c => (r, Fin.ofNat 16 c) else [] := by
    split
    · rename_i h
      rw [decide_eq_true_eq] at h
      simp only [inMatrix, h, decide_true, Bool.true_and, finRange_filter_lt hc, List.map_map]
      rfl
    · rename_i h
      rw [decide_eq_true_eq] at h
      simp [inMatrix, h]
  simp only [keyOrder, hrow]
  rw [flatMap_guard (fun r : Idx => decide (r.val < P.rows)), finRange_filter_lt hr, List.flatMap_map]
  exact flatMap_range_map (fun r c => (Fin.ofNat 16 r, Fin.ofNat 16 c)) P.rows

theorem key_number_lt {P : Config} {r c : Idx} (hm : inMatrix P r c = true) :
    r.val * P.cols + c.val < P.rows * P.cols := by
  obtain ⟨hr, hc⟩ := inMatrix_iff.1 hm
  have := Nat.mul_le_mul_right P.cols (Nat.succ_le_of_lt hr)
  rw [Nat.succ_mul] at this
  omega

section
variable {P : Config} (hv : configValid P = true)
include hv

/-- The numbers below ROWS × COLS are those of the keys of the matrix. -/
theorem dispatchKey_spec {j : Nat} (hj : j < P.rows * P.cols) :
    (dispatchKey P j).1.val = j / P.cols ∧ (dispatchKey P j).2.val = j % P.cols ∧
      inMatrix P (dispatchKey P j).1 (dispatchKey P j).2 = true := by
  obtain ⟨⟨-, hrows⟩, hcols1, hcols⟩ := dims_of_configValid hv
  have hr : j / P.cols < P.rows := (Nat.div_lt_iff_lt_mul hcols1).2 hj
  have hc : j % P.cols < P.cols := Nat.mod_lt _ hcols1
  have h1 : (dispatchKey P j).1.val = j / P.cols := Nat.mod_eq_of_lt (by omega)
  have h2 : (dispatchKey P j).2.val = j % P.cols := Nat.mod_eq_of_lt (by omega)
  exact ⟨h1, h2, inMatrix_iff.2 ⟨h1 ▸ hr, h2 ▸ hc⟩⟩

/-- The number of a key. -/
theorem eq_dispatchKey_iff {r c : Idx} {j : Nat} (hm : inMatrix P r c = true) (hj : j < P.rows * P.cols) :
    (r, c) = dispatchKey P j ↔ r.val * P.cols + c.val = j := by
  obtain ⟨h1, h2, -⟩ := dispatchKey_spec hv hj
  obtain ⟨-, hc⟩ := inMatrix_iff.1 hm
  constructor
  · intro e
    rw [← e] at h1 h2
    rw [h1, h2, Nat.div_add_mod']
  · intro e
    have hr' : r.val = j / P.cols := by
      rw [← e, Nat.mul_comm, Nat.mul_add_div (by omega), Nat.div_eq_of_lt hc, Nat.add_zero]
    have hc' : c.val = j % P.cols := by
      rw [← e, Nat.mul_comm, Nat.mul_add_mod, Nat.mod_eq_of_lt hc]
    exact Prod.ext (Fin.ext (hr'.trans h1.symm)) (Fin.ext (hc'.trans h2.symm))

/-- The cursor moves from key j to key j + 1. -/
theorem Cursor.next_dispatchKey (h : Half) (j : Nat) :
    Cursor.next P { h := h, r := j / P.cols, c := j % P.cols } =
      { h := h, r := (j + 1) / P.cols, c := (j + 1) % P.cols } := by
  obtain ⟨-, hcols, -⟩ := dims_of_configValid hv
  have hj := Nat.div_add_mod j P.cols
  have hm := Nat.mod_lt j hcols
  unfold Cursor.next
  simp only
  split
  · rename_i hc
    have hj' : j + 1 = P.cols * (j / P.cols) + (j % P.cols + 1) := by omega
    rw [hj', Nat.mul_add_div hcols, Nat.div_eq_of_lt hc, Nat.mul_add_mod, Nat.mod_eq_of_lt hc]
    rfl
  · have hj' : j + 1 = P.cols * (j / P.cols + 1) := by rw [Nat.mul_succ]; omega
    rw [hj', Nat.mul_div_cancel_left _ hcols, Nat.mul_mod_right]

end

/-! ### The queue under a list of offers -/

/-- From s to t the relay has been offered the events evs in order: it has taken the first that fit, or some of them
in that order where it may drop early (43_eventrelay.md R131). -/
def QueueTook (s : State) (evs : List Event) (t : State) : Prop :=
  (s.cfg.relayMayDropEarly = false → t.eq = s.eq ++ evs.take (s.cfg.queueCap - s.eq.length)) ∧
    ∃ taken : List Event, taken.Sublist evs ∧ t.eq = s.eq ++ taken

theorem QueueTook.keep {s t u : State} {evs : List Event} (h : QueueTook s evs t) (he : u.eq = t.eq) :
    QueueTook s evs u := by
  rwa [QueueTook, he]

/-- One more offer: it is taken when there is room, and may be dropped only early or with the queue full. -/
theorem QueueTook.offer {s t u : State} {evs : List Event} {e : Event} (h : QueueTook s evs t)
    (hfull : s.cfg.queueCap ≤ t.eq.length → u.eq = t.eq)
    (hroom : t.eq.length < s.cfg.queueCap → s.cfg.relayMayDropEarly = false → u.eq = t.eq ++ [e])
    (heither : u.eq = t.eq ∨ u.eq = t.eq ++ [e]) : QueueTook s (evs ++ [e]) u := by
  obtain ⟨hfirst, taken, hsub, htaken⟩ := h
  refine ⟨fun hd => ?_, ?_⟩
  · have ht := hfirst hd
    have hlen : t.eq.length = s.eq.length + min (s.cfg.queueCap - s.eq.length) evs.length := by
      rw [ht, List.length_append, List.length_take]
    by_cases hc : s.cfg.queueCap ≤ t.eq.length
    · rw [hfull hc, ht, List.take_append_of_le_length (by omega)]
    · rw [hroom (by omega) hd, ht, List.take_of_length_le (by omega), List.take_of_length_le (by simp; omega),
        List.append_assoc]
  · rcases heither with he | he
    · exact ⟨taken, hsub.trans (List.sublist_append_left evs [e]), he.trans htaken⟩
    · exact ⟨taken ++ [e], hsub.append_right [e], by rw [he, htaken, List.append_assoc]⟩

/-- The events a dispatch of half h offers for the keys of a list. -/
def State.offeredBy (s : State) (h : Half) (ks : List (Idx × Idx)) : List Event :=
  (ks.filter fun k => (s.keyAfter h k.1 k.2).2).map fun k =>
    { row := k.1, col := k.2, output := (s.keyAfter h k.1 k.2).1.fsm.out }

theorem State.offeredBy_concat (s : State) (h : Half) (ks : List (Idx × Idx)) (k : Idx × Idx) :
    s.offeredBy h (ks ++ [k]) = s.offeredBy h ks ++
      if (s.keyAfter h k.1 k.2).2 then
        [{ row := k.1, col := k.2, output := (s.keyAfter h k.1 k.2).1.fsm.out }]
      else [] := by
  cases hk : (s.keyAfter h k.1 k.2).2 <;> simp [State.offeredBy, List.filter_append, hk]

/-! ### A dispatch after its first j key steps -/

/-- In t the dispatch of half h that was started in s has done its first j key steps, and no other move has been made.
-/
structure DispatchedTo (s : State) (h : Half) (j : Nat) (t : State) : Prop where
  inv : Inv t
  ready : t.phase = .ready
  between : t.stage = .keyStart
  uncut : t.cutKey = none
  alone : t.inbox = []
  cfg : t.cfg = s.cfg
  snap : t.snap = s.snap
  busy : t.busy = decide (j < s.cfg.rows * s.cfg.cols)
  cur : t.cur = { h := h, r := j / s.cfg.cols, c := j % s.cfg.cols }
  keys : ∀ r c : Idx, inMatrix s.cfg r c = true →
    t.key r c = if r.val * s.cfg.cols + c.val < j then (s.keyAfter h r c).1 else s.key r c
  queue : QueueTook s (s.offeredBy h ((List.range j).map (dispatchKey s.cfg))) t

/-- The acceptance of the notification, before the first key step. -/
theorem dispatchedTo_start {s : State} (hinv : Inv s) (h : Half) (hp : s.phase = .ready) (hb : s.busy = false)
    (hg : s.stage = .keyStart) (hi : s.inbox = []) : DispatchedTo s h 0 (s.beginDispatch h).done := by
  have hv := hinv.lifecycle.configValid hp
  obtain ⟨⟨hrows, -⟩, hcols, -⟩ := dims_of_configValid hv
  have hk : s.cutKey = none := by
    obtain ⟨-, hcut, -⟩ := hinv.lifecycle
    by_contra hne
    obtain ⟨⟨r, c⟩, hk⟩ := Option.ne_none_iff_exists'.1 hne
    obtain ⟨-, hinside, -⟩ := hcut r c hk
    exact hinside hg
  have hpos : 0 < s.cfg.rows * s.cfg.cols := Nat.mul_pos hrows hcols
  exact
    { inv := (hinv.beginDispatch h hp hb).withAnswer _
      ready := hp
      between := (State.beginDispatch_keeps_stage hinv.lifecycle hb h).trans hg
      uncut := hk
      alone := hi
      cfg := rfl
      snap := rfl
      busy := (decide_eq_true hpos).symm
      cur := by simp
      keys := fun r c _ => rfl
      queue := ⟨fun _ => by simp [State.offeredBy], [], List.nil_sublist _, by simp⟩ }

section
variable {s t : State} {h : Half} {j : Nat} {r c : Idx}

theorem DispatchedTo.working (ht : DispatchedTo s h j t) (hv : configValid s.cfg = true)
    (hj : j < s.cfg.rows * s.cfg.cols) (hk : (r, c) = dispatchKey s.cfg j) : Working r c t := by
  obtain ⟨h1, h2, hm⟩ := dispatchKey_spec hv hj
  rw [← hk] at h1 h2 hm
  refine ⟨State.active_iff.2 (.inl (by simpa [ht.busy] using hj)), ?_⟩
  rw [State.dueKey_of_cursor ht.uncut]
  exact State.cursorKey_of (by rwa [ht.cfg]) (by rw [ht.cur]; exact h1.symm) (by rw [ht.cur]; exact h2.symm)

/-- The key step that is due is the timestep the atomic view gives its key. -/
theorem DispatchedTo.timestep (ht : DispatchedTo s h j t) (hv : configValid s.cfg = true) (hw : HalfWritten s h)
    (hj : j < s.cfg.rows * s.cfg.cols) (hk : (r, c) = dispatchKey s.cfg j) :
    t.timestep r c (t.stepSample h r c) = s.keyAfter h r c := by
  obtain ⟨-, -, hm⟩ := dispatchKey_spec hv hj
  rw [← hk] at hm
  have hnumber : r.val * s.cfg.cols + c.val = j := (eq_dispatchKey_iff hv hm hj).1 hk
  have hkey : t.key r c = s.key r c := (ht.keys r c hm).trans (if_neg (by omega))
  obtain ⟨w, hword⟩ := Option.isSome_iff_exists.1 (hw r (inRow_iff.2 (inMatrix_iff.1 hm).1))
  have hword' : t.snapWord h r = some w := (State.snapWord_congr ht.snap h r).trans hword
  simp only [State.timestep, State.keyAfter, State.stepSample, State.sampleOf, ht.cfg, hkey, hword, hword',
    Option.getD_some]

theorem DispatchedTo.keyStepped (ht : DispatchedTo s h j t) (hv : configValid s.cfg = true) (hw : HalfWritten s h)
    (hj : j < s.cfg.rows * s.cfg.cols) (hk : (r, c) = dispatchKey s.cfg j) :
    KeyStepped r c (s.keyAfter h r c) t (t.opKeystep h r c) := by
  obtain ⟨-, -, hm⟩ := dispatchKey_spec hv hj
  rw [← hk] at hm
  rw [← ht.timestep hv hw hj hk]
  exact State.opKeystep_inRange h (ht.inv.inRange ht.ready (by rwa [ht.cfg]))

end

/-- The end of a key step inside a dispatch moves the cursor on, and after the last key the dispatch is over. -/
theorem State.finishKey_of_busy {s : State} (hb : s.busy = true) (hk : s.cutKey = none) :
    s.finishKey.cur = s.cur.next s.cfg ∧ s.finishKey.busy = decide ((s.cur.next s.cfg).r < s.cfg.rows) := by
  rcases s.finishKey_spec with ⟨ha, -⟩ | ⟨hcut, -⟩ | ⟨-, -, hr, e⟩ | ⟨-, -, hr, e⟩
  · simp [State.active, hb] at ha
  · simp [hk] at hcut
  · rw [e]
    exact ⟨rfl, by simpa [hb] using hr⟩
  · rw [e]
    exact ⟨rfl, by simpa using hr⟩

section
variable {s t u : State} {h : Half} {j : Nat} {r c : Idx}

/-- The keys after one more key step. -/
theorem DispatchedTo.keys_next (ht : DispatchedTo s h j t) (hv : configValid s.cfg = true)
    (hj : j < s.cfg.rows * s.cfg.cols) (hk : (r, c) = dispatchKey s.cfg j)
    (hu : KeyStepped r c (s.keyAfter h r c) t u) (r' c' : Idx) (hm : inMatrix s.cfg r' c' = true) :
    u.key r' c' = if r'.val * s.cfg.cols + c'.val < j + 1 then (s.keyAfter h r' c').1 else s.key r' c' := by
  obtain ⟨hkey, hother, -⟩ := hu
  have hnumber := eq_dispatchKey_iff hv hm hj
  rw [← hk] at hnumber
  by_cases he : (r', c') = (r, c)
  · have hn : r'.val * s.cfg.cols + c'.val = j := hnumber.1 he
    obtain ⟨rfl, rfl⟩ := Prod.mk.inj he
    rw [hkey, if_pos (by omega)]
  · have hne := mt hnumber.2 he
    rw [hother r' c' he, ht.keys r' c' hm]
    exact if_congr (by omega) rfl rfl

/-- The queue after one more key step. -/
theorem DispatchedTo.queue_next (ht : DispatchedTo s h j t) (hk : (r, c) = dispatchKey s.cfg j)
    (hu : KeyStepped r c (s.keyAfter h r c) t u) :
    QueueTook s (s.offeredBy h ((List.range (j + 1)).map (dispatchKey s.cfg))) u := by
  obtain ⟨-, -, -, -, hoff, hon⟩ := hu
  rw [List.range_succ, List.map_append, List.map_singleton, State.offeredBy_concat, ← hk]
  cases hc : (s.keyAfter h r c).2 with
  | false => simpa [hc] using ht.queue.keep (hoff hc).2
  | true =>
    obtain ⟨-, -, hfull, hroom, heither⟩ := hon hc
    rw [ht.cfg] at hfull hroom
    simpa [hc] using ht.queue.offer hfull hroom heither

/-- One move of the engine does one more key step. -/
theorem DispatchedTo.next (ht : DispatchedTo s h j t) (hv : configValid s.cfg = true) (hw : HalfWritten s h)
    (hj : j < s.cfg.rows * s.cfg.cols) : ∃ u, step t = .next u ∧ DispatchedTo s h (j + 1) u := by
  obtain ⟨r, c, hk⟩ : ∃ r c, (r, c) = dispatchKey s.cfg j := ⟨_, _, rfl⟩
  obtain ⟨hcols, -⟩ := (dims_of_configValid hv).2
  have hwork := ht.working hv hj hk
  have hu := ht.keyStepped hv hw hj hk
  have hh : t.cur.h = h := by rw [ht.cur]
  have hstep : step t = .next (t.opKeystep h r c).finishKey := by
    rw [step_nil ht.alone, turnKey_eq hwork.1 ht.between hwork.2, hh]
  have ⟨_, _, _, hframe, _⟩ := hu
  have hwork' := hwork.of_frame hframe (by decide)
  have hb' : (t.opKeystep h r c).busy = true := by
    rw [show (t.opKeystep h r c).busy = t.busy from hframe .busy (by decide), ht.busy]
    exact decide_eq_true hj
  have hk' : (t.opKeystep h r c).cutKey = none := Eq.trans (hframe .cutKey (by decide)) ht.uncut
  obtain ⟨hcur, hbusy⟩ := State.finishKey_of_busy hb' hk'
  obtain ⟨hstage, hcut⟩ := State.finishKey_stage hwork'.1
  rw [State.opKeystep_cur, State.opKeystep_cfg, ht.cur, ht.cfg, Cursor.next_dispatchKey hv] at hcur hbusy
  refine ⟨_, hstep, ?_⟩
  exact
    { inv := stepKeepsInvariant t _ ht.inv hstep
      ready := by rw [State.finishKey_phase]; exact Eq.trans (hframe .phase (by decide)) ht.ready
      between := hstage
      uncut := hcut
      alone := by simpa using ht.alone
      cfg := by simpa using ht.cfg
      snap := by simpa using ht.snap
      busy := hbusy.trans (decide_eq_decide.2 (Nat.div_lt_iff_lt_mul hcols))
      cur := hcur
      keys := fun r' c' hm =>
        (State.key_congr (State.finishKey_keys _) r' c').trans (ht.keys_next hv hj hk hu r' c' hm)
      queue := (ht.queue_next hk hu).keep (State.finishKey_eq _) }

/-- The rest of the dispatch, one move of the engine for each key. -/
theorem DispatchedTo.run (hv : configValid s.cfg = true) (hw : HalfWritten s h) (n : Nat) :
    ∀ {j : Nat} {t : State}, DispatchedTo s h j t → j + n = s.cfg.rows * s.cfg.cols →
      ∃ u, runSteps n t = .next u ∧ DispatchedTo s h (s.cfg.rows * s.cfg.cols) u := by
  induction n with
  | zero => exact fun ht hn => ⟨_, rfl, hn ▸ ht⟩
  | succ n ih =>
    intro j t ht hn
    obtain ⟨u, hstep, hu⟩ := ht.next hv hw (by omega)
    obtain ⟨v, hrun, hdone⟩ := ih hu (by omega)
    exact ⟨v, (runSteps_next hstep).trans hrun, hdone⟩

end

/-- Settles O31: the dispatch done up to its last key, and the published bits by the invariant between key steps. -/
theorem dispatchIsOneTimestepOfEveryKey : Obligations.DispatchIsOneTimestepOfEveryKey := by
  intro s h hinv hp hb hg hi hw
  have hv := hinv.lifecycle.configValid hp
  obtain ⟨⟨-, hrows⟩, -, hcols⟩ := dims_of_configValid hv
  obtain ⟨t, hrun, ht⟩ := (dispatchedTo_start hinv h hp hb hg hi).run hv hw _ (Nat.zero_add _)
  have hqueue : QueueTook s (s.offeredEvents h) t := by
    have := ht.queue
    rwa [← keyOrder_eq hrows hcols] at this
  obtain ⟨hfirst, taken, hsub, htaken⟩ := hqueue
  have hbound : t.eq.length ≤ s.cfg.queueCap := ht.cfg ▸ ht.inv.queue
  refine ⟨_, t, exec_notify_accepts h hp hb, hrun, by simpa using ht.busy, ht.between, ht.ready, fun r c hm => ?_,
    hfirst, ⟨taken, hsub, htaken, hbound⟩, ht.snap⟩
  have hkey : t.key r c = (s.keyAfter h r c).1 := (ht.keys r c hm).trans (if_pos (key_number_lt hm))
  exact ⟨hkey, hkey ▸ ht.inv.allPublished ht.ready ht.between r c (by rwa [ht.cfg])⟩

end Sys2Proof.Machine
end
